-- ==== Sys2Proof/Word.lean ====
section
/-!
DEFINITION. The word types of the core (rules R12, R55, R57, R73).
-/

namespace Sys2Proof

/-- A 32-bit port or register: operands `a`, `b`, `c`, results, telegram words (rules R55, R73). -/
abbrev Word := BitVec 32

/-- A sample of the microsecond clock (rule R12). It has `TW` bits, and `TW` is OPEN (rule R2), so it is the number
those bits show, below `2^TW` (`Safety.StampsInRange`). -/
abbrev Stamp := Nat

/-- One ternary symbol (rule R57): `LOW = 0`, `HIGH = 1`, `FLOAT = 2`. -/
inductive Trit where
  | low
  | high
  | float
deriving DecidableEq, Repr

/-- The value of a symbol (rule R57). -/
def Trit.toNat : Trit → Nat
  | .low => 0
  | .high => 1
  | .float => 2

end Sys2Proof
end

