-- ==== Sys2Proof/Syntax.lean ====
section
/-!
DEFINITION. The syntax of the core: the encoded words of every `format` the opcode table names, and `Instr`,
one constructor for each of its 37 rows (30_encoding.md).
-/

namespace Sys2Proof

/-- What the host drives at the operation port: the 4-bit operation code and the three operands
(rules R12, R72, R73). -/
structure Request where
  op : BitVec 4
  a : Word
  b : Word
  c : Word
deriving DecidableEq, Repr

/-- The `format` names of spec/opcode_table.json (opening of 30_encoding.md). -/
inductive Format where
  | op
  | internal
  | tuple
  | tw32
  | sym
  | symv24
  | air4
  | airsync
  | line
deriving DecidableEq, Repr

/-- One encoded word together with the format it is written in. The core has four kinds of encoding, each
carried at a place of its own, so the same number means different things in different formats. -/
inductive Encoded where
  /-- A request at the operation port (rule R72). -/
  | op (q : Request)
  /-- The request of the timing generator, which has no code (rule R136). -/
  | internal
  /-- A tuple with the two other operands of `GET_TELEGRAM` (rule R73). -/
  | tuple (a b c : Word)
  /-- A telegram word (rule R55). -/
  | tw32 (w : Word)
  /-- One symbol in 2 bits (rule R57). -/
  | sym (v : BitVec 2)
  /-- Twelve symbols in 24 bits (rule R57). -/
  | symv24 (v : BitVec 24)
  /-- Four classified intervals on reception, the first in bit 3 (rule R59). -/
  | air4 (p : BitVec 4)
  /-- The terminating sync on reception: a short interval, then a gap (rules R112, R113). -/
  | airsync
  /-- The line over 8 periods on transmission, the first period in bit 7 (rule R61). -/
  | line8 (p : BitVec 8)
  /-- The line over 32 periods on transmission, the first period in bit 31 (rule R61). -/
  | line32 (p : Word)
deriving DecidableEq, Repr

/-- The format a word is written in. -/
def Encoded.format : Encoded → Format
  | .op _ => .op
  | .internal => .internal
  | .tuple _ _ _ => .tuple
  | .tw32 _ => .tw32
  | .sym _ => .sym
  | .symv24 _ => .symv24
  | .air4 _ => .air4
  | .airsync => .airsync
  | .line8 _ => .line
  | .line32 _ => .line

/-- One constructor for each row of spec/opcode_table.json, in the table's order. -/
inductive Instr where
  /-- `NOP`, code 0x0 (rule R72). -/
  | nop
  /-- `ENABLE`, code 0x1 (rule R150). -/
  | enable
  /-- `DISABLE`, code 0x2 (rule R151). -/
  | disable
  /-- `SET_MIN_REPEATS v`, code 0x3 (rule R152). -/
  | setMinRepeats (v : BitVec 8)
  /-- `CB_DONE`, code 0x4 (rule R153). -/
  | cbDone
  /-- `READ_STATE`, code 0x5 (rule R154). -/
  | readState
  /-- `SEND_TELEGRAM word`, code 0x6 (rule R131). -/
  | sendTelegram (word : Word)
  /-- `SEND_CODE word`, code 0x7 (rule R132). -/
  | sendCode (word : Word)
  /-- `ENCODE_TELEGRAM symv, periodMicros, repeatLog2`, code 0x8 (rule R80). -/
  | encodeTelegram (symv : BitVec 24) (periodMicros repeatLog2 : Word)
  /-- `UNPACK_TELEGRAM word`, code 0x9 (rule R81). -/
  | unpackTelegram (word : Word)
  /-- `CODE_TO_SYMBOLS code`, code 0xA (rule R82). -/
  | codeToSymbols (code : BitVec 20)
  /-- `IS_SAME_CODE a, b`, code 0xB (rule R83). -/
  | isSameCode (a b : Word)
  /-- `GET_TELEGRAM tuple, periodMicros, repeatLog2`, code 0xC (rule R84). -/
  | getTelegram (tuple periodMicros repeatLog2 : Word)
  /-- `RESET`, code 0xD (rule R155). -/
  | reset
  /-- `EDGE now`, code 0xE (rule R100): `now` is the clock sampled at the transition (R12). -/
  | edge (now : Stamp)
  /-- The reserved code 0xF (rule R76). -/
  | reservedF
  /-- `TX_STEP`, internal, without a code (rule R136). -/
  | txStep
  /-- `GET_TELEGRAM` of a `KaKu` tuple without a group (rule R85). -/
  | getKaku (on : Bool) (address : BitVec 8) (device : BitVec 16) (periodMicros repeatLog2 : Word)
  /-- `GET_TELEGRAM` of a `KaKu` tuple with a group (rule R86). -/
  | getKakuGroup (on : Bool) (group : BitVec 4) (address : BitVec 8) (device : BitVec 16)
      (periodMicros repeatLog2 : Word)
  /-- `GET_TELEGRAM` of an `Action` tuple (rule R87). -/
  | getAction (on : Bool) (systemCode : BitVec 5) (device : BitVec 8) (periodMicros repeatLog2 : Word)
  /-- `GET_TELEGRAM` of a `Blokker` tuple (rule R88). -/
  | getBlokker (on : Bool) (device : BitVec 16) (periodMicros repeatLog2 : Word)
  /-- `GET_TELEGRAM` of an `Elro` tuple (rule R89). -/
  | getElro (on : Bool) (systemCode : BitVec 5) (device : BitVec 8) (periodMicros repeatLog2 : Word)
  /-- A telegram word with its three fields (rule R55). -/
  | telegramWord (periodMicros : BitVec 9) (repeatLog2 : BitVec 3) (code : BitVec 20)
  /-- The symbol `LOW` (rule R57). -/
  | symLow
  /-- The symbol `HIGH` (rule R57). -/
  | symHigh
  /-- The symbol `FLOAT` (rule R57). -/
  | symFloat
  /-- The reserved symbol value 3 (rule R66). -/
  | symReserved
  /-- A vector of twelve symbols (rule R57). -/
  | symv (v : BitVec 24)
  /-- Reception of the pattern `0101`, intervals S L S L (rules R59, R110). -/
  | rxTrit0
  /-- Reception of the pattern `1010`, intervals L S L S (rules R59, R110). -/
  | rxTrit1
  /-- Reception of the pattern `0110`, intervals S L L S (rules R59, R110). -/
  | rxTrit2
  /-- Reception of one of the 13 illegal patterns (rule R65). -/
  | rxIllegal (pattern : BitVec 4)
  /-- Reception of the terminating sync, S then a gap (rules R112, R113). -/
  | rxSync
  /-- Transmission of the symbol 0 (rule R61). -/
  | txSym0
  /-- Transmission of the symbol 1 (rule R61). -/
  | txSym1
  /-- Transmission of the symbol 2 (rule R61). -/
  | txSym2
  /-- Transmission of the terminating sync (rule R61). -/
  | txSync
deriving DecidableEq, Repr

/-- The format of an instruction's row in spec/opcode_table.json. -/
def Instr.format : Instr → Format
  | .nop => .op
  | .enable => .op
  | .disable => .op
  | .setMinRepeats _ => .op
  | .cbDone => .op
  | .readState => .op
  | .sendTelegram _ => .op
  | .sendCode _ => .op
  | .encodeTelegram _ _ _ => .op
  | .unpackTelegram _ => .op
  | .codeToSymbols _ => .op
  | .isSameCode _ _ => .op
  | .getTelegram _ _ _ => .op
  | .reset => .op
  | .edge _ => .op
  | .reservedF => .op
  | .txStep => .internal
  | .getKaku _ _ _ _ _ => .tuple
  | .getKakuGroup _ _ _ _ _ _ => .tuple
  | .getAction _ _ _ _ _ => .tuple
  | .getBlokker _ _ _ _ => .tuple
  | .getElro _ _ _ _ _ => .tuple
  | .telegramWord _ _ _ => .tw32
  | .symLow => .sym
  | .symHigh => .sym
  | .symFloat => .sym
  | .symReserved => .sym
  | .symv _ => .symv24
  | .rxTrit0 => .air4
  | .rxTrit1 => .air4
  | .rxTrit2 => .air4
  | .rxIllegal _ => .air4
  | .rxSync => .airsync
  | .txSym0 => .line
  | .txSym1 => .line
  | .txSym2 => .line
  | .txSync => .line

/-- The agents that issue operations to the block (rules R44, R176). `none` of `Instr.agent` stands for the rows
of the table that are data or on-air formats, which no agent issues as an operation. -/
inductive Agent where
  | receiveLine
  | host
  | timingGenerator
deriving DecidableEq, Repr

/-- Which agent may issue an instruction (table of rule R176). -/
def Instr.agent (i : Instr) : Option Agent :=
  match i with
  | .edge _ => some .receiveLine
  | .txStep => some .timingGenerator
  | _ =>
    match i.format with
    | .op => some .host
    | .tuple => some .host
    | _ => none

end Sys2Proof
end

