-- ==== Sys2Proof/WellFormed.lean ====
section
/-!
DEFINITION. Well-formed instructions. Every operand type but two holds exactly the values its field admits, so two checks
are left: the pattern of `RX.ILLEGAL` is none of the three legal ones (rule R65), and the timestamp of `EDGE` fits the
operand `a` (rule R73).
-/

namespace Sys2Proof

/-- The three four-interval patterns that are symbols (rules R59, R110). -/
def legalPattern (p : BitVec 4) : Bool :=
  p == 0b0101#4 || p == 0b1010#4 || p == 0b0110#4

/-- The check on an instruction's operands (rule R65: 13 illegal patterns; rule R73: 32-bit operands). -/
def Instr.wellFormed : Instr → Bool
  | .rxIllegal p => !legalPattern p
  | .edge now => decide (now < 2 ^ 32)
  | _ => true

/-- An instruction whose operands pass the check. -/
abbrev Instr.WellFormed (i : Instr) : Prop := i.wellFormed = true

end Sys2Proof
end

