-- ==== Sys2Proof/Decode.lean ====
section
/-!
DEFINITION. The decoder, total on every encoded word, and after it the encoder; both are written from the tables
of 30_encoding.md (rules R55, R57, R59, R61, R72, R73).
-/

namespace Sys2Proof

/-- Why a word is no encoding. -/
inductive Reject where
  /-- An 8-period line pattern that is no symbol: the encoder never sends it (rules R61, R65). -/
  | linePattern8
  /-- A 32-period line pattern that is not the terminating sync (rule R61). -/
  | linePattern32
deriving DecidableEq, Repr

/-- The operation selected by the code `op` (rule R72), with the operand fields of rule R73. Operand bits that an
operation does not use are ignored; `EDGE` takes bits `TW-1:0` of its operand (`execEdge`), since `TW` is no part of
the encoding. -/
def decodeRequest (q : Request) : Instr :=
  match q.op.toNat with
  | 0x0 => .nop
  | 0x1 => .enable
  | 0x2 => .disable
  | 0x3 => .setMinRepeats (q.a.extractLsb' 0 8)
  | 0x4 => .cbDone
  | 0x5 => .readState
  | 0x6 => .sendTelegram q.a
  | 0x7 => .sendCode q.a
  | 0x8 => .encodeTelegram (q.a.extractLsb' 0 24) q.b q.c
  | 0x9 => .unpackTelegram q.a
  | 0xA => .codeToSymbols (q.a.extractLsb' 0 20)
  | 0xB => .isSameCode q.a q.b
  | 0xC => .getTelegram q.a q.b q.c
  | 0xD => .reset
  | 0xE => .edge q.a.toNat
  | _ => .reservedF

/-- The form a `GET_TELEGRAM` tuple selects (tables of rules R63 and R73): `tag` in bits 1:0, `on` in bit 2,
`hasGroup` in bit 3, `group` in 7:4, `address` in 15:8, `device` in 31:16. -/
def decodeTuple (a b c : Word) : Instr :=
  match (a.extractLsb' 0 2).toNat, a.getLsbD 3 with
  | 0, false => .getKaku (a.getLsbD 2) (a.extractLsb' 8 8) (a.extractLsb' 16 16) b c
  | 0, true => .getKakuGroup (a.getLsbD 2) (a.extractLsb' 4 4) (a.extractLsb' 8 8) (a.extractLsb' 16 16) b c
  | 1, _ => .getAction (a.getLsbD 2) (a.extractLsb' 8 5) (a.extractLsb' 16 8) b c
  | 2, _ => .getBlokker (a.getLsbD 2) (a.extractLsb' 16 16) b c
  | _, _ => .getElro (a.getLsbD 2) (a.extractLsb' 8 5) (a.extractLsb' 16 8) b c

/-- The symbol a 2-bit value stands for (rules R57, R66). -/
def decodeSym (v : BitVec 2) : Instr :=
  match v.toNat with
  | 0 => .symLow
  | 1 => .symHigh
  | 2 => .symFloat
  | _ => .symReserved

/-- The symbol a received pattern stands for (rules R59, R65, R110). -/
def decodeAir (p : BitVec 4) : Instr :=
  match p.toNat with
  | 0b0101 => .rxTrit0
  | 0b1010 => .rxTrit1
  | 0b0110 => .rxTrit2
  | _ => .rxIllegal p

/-- The symbol a transmitted 8-period pattern stands for (rule R61). -/
def decodeLine8 (p : BitVec 8) : Except Reject Instr :=
  match p.toNat with
  | 0b10001000 => .ok .txSym0
  | 0b11101110 => .ok .txSym1
  | 0b10001110 => .ok .txSym2
  | _ => .error .linePattern8

/-- The terminating sync as a transmitted 32-period pattern (rule R61). -/
def decodeLine32 (p : Word) : Except Reject Instr :=
  if p = 0x80000000#32 then .ok .txSync else .error .linePattern32

/-- The decoder: each word is read in its own format; only line patterns can be no encoding. -/
def decode : Encoded → Except Reject Instr
  | .op q => .ok (decodeRequest q)
  | .internal => .ok .txStep
  | .tuple a b c => .ok (decodeTuple a b c)
  | .tw32 w => .ok (.telegramWord (w.extractLsb' 23 9) (w.extractLsb' 20 3) (w.extractLsb' 0 20))
  | .sym v => .ok (decodeSym v)
  | .symv24 v => .ok (.symv v)
  | .air4 p => .ok (decodeAir p)
  | .airsync => .ok .rxSync
  | .line8 p => decodeLine8 p
  | .line32 p => decodeLine32 p

/-- A request with the given code and operands; an operand an operation does not use is written 0. -/
def request (op : BitVec 4) (a b c : Word) : Encoded := .op ⟨op, a, b, c⟩

/-- One bit of a tuple. -/
def tupleBit (v : Bool) : BitVec 1 := if v then 1#1 else 0#1

/-- The encoder: the word of a well-formed instruction, from the same tables. -/
def encode : Instr → Encoded
  | .nop => request 0x0#4 0 0 0
  | .enable => request 0x1#4 0 0 0
  | .disable => request 0x2#4 0 0 0
  | .setMinRepeats v => request 0x3#4 (v.setWidth 32) 0 0
  | .cbDone => request 0x4#4 0 0 0
  | .readState => request 0x5#4 0 0 0
  | .sendTelegram w => request 0x6#4 w 0 0
  | .sendCode w => request 0x7#4 w 0 0
  | .encodeTelegram v p r => request 0x8#4 (v.setWidth 32) p r
  | .unpackTelegram w => request 0x9#4 w 0 0
  | .codeToSymbols c => request 0xA#4 (c.setWidth 32) 0 0
  | .isSameCode a b => request 0xB#4 a b 0
  | .getTelegram t p r => request 0xC#4 t p r
  | .reset => request 0xD#4 0 0 0
  | .edge now => request 0xE#4 (BitVec.ofNat 32 now) 0 0
  | .reservedF => request 0xF#4 0 0 0
  | .txStep => .internal
  | .getKaku on addr dev p r => .tuple (dev ++ addr ++ 0#4 ++ 0#1 ++ tupleBit on ++ 0#2) p r
  | .getKakuGroup on g addr dev p r => .tuple (dev ++ addr ++ g ++ 1#1 ++ tupleBit on ++ 0#2) p r
  | .getAction on sys dev p r => .tuple (0#8 ++ dev ++ 0#3 ++ sys ++ 0#5 ++ tupleBit on ++ 1#2) p r
  | .getBlokker on dev p r => .tuple (dev ++ 0#13 ++ tupleBit on ++ 2#2) p r
  | .getElro on sys dev p r => .tuple (0#8 ++ dev ++ 0#3 ++ sys ++ 0#5 ++ tupleBit on ++ 3#2) p r
  | .telegramWord p r c => .tw32 (p ++ r ++ c)
  | .symLow => .sym 0#2
  | .symHigh => .sym 1#2
  | .symFloat => .sym 2#2
  | .symReserved => .sym 3#2
  | .symv v => .symv24 v
  | .rxTrit0 => .air4 0b0101#4
  | .rxTrit1 => .air4 0b1010#4
  | .rxTrit2 => .air4 0b0110#4
  | .rxIllegal p => .air4 p
  | .rxSync => .airsync
  | .txSym0 => .line8 0b10001000#8
  | .txSym1 => .line8 0b11101110#8
  | .txSym2 => .line8 0b10001110#8
  | .txSync => .line32 0x80000000#32

/-- The word of `nbits` bits that spec/opcode_table.json gives a row, in the row's format. The table numbers only
OP, TUPLE and LINE rows. A line pattern is known by its length and bits; every other number is read as a request,
`op` in bits 3:0, then after a byte the operands `a`, `b`, `c` of 32 bits each (assumption 3: the bits of a TUPLE
row are bits of operand `a`, and as a number they are those of another row's code). -/
def tableWord (nbits w : Nat) : Encoded :=
  if nbits = 8 ∧ (w = 0x88 ∨ w = 0xEE ∨ w = 0x8E) then .line8 (BitVec.ofNat 8 w)
  else if nbits = 32 ∧ w = 0x80000000 then .line32 0x80000000#32
  else .op ⟨BitVec.ofNat 4 w, BitVec.ofNat 32 (w >>> 8), BitVec.ofNat 32 (w >>> 40), BitVec.ofNat 32 (w >>> 72)⟩

/-- The instruction the decoder reads from a row's bits. -/
def decodeTableWord (nbits w : Nat) : Option Instr :=
  match decode (tableWord nbits w) with
  | .ok i => some i
  | .error _ => none

end Sys2Proof
end

