-- ==== Sys2Proof/Machine/Clock.lean ====
section
/-!
DEFINITION. Arithmetic on samples of the clock, for every width `tw` (rules R4, R5, R12).
-/

namespace Sys2Proof.Machine

/-- What `TW` bits show of a number: a port of that width, or `a[TW-1:0]` of an operand (rules R12, R73). -/
def wrap (tw n : Nat) : Stamp := n % 2 ^ tw

/-- The interval from `earlier` to `later`, `(later - earlier) mod 2^TW` (rule R4), as the integer the rules compare. -/
def interval (tw : Nat) (later earlier : Stamp) : Nat := (((later : Int) - (earlier : Int)) % (2 ^ tw : Nat)).toNat

end Sys2Proof.Machine
end

