-- ==== Sys2Proof/Config.lean ====
section
/-!
DEFINITION. The parameters of the RhomeV3 RF telegram core (rule R2). Those with one value are constants; those marked
OPEN, `TW` and the four `LAYOUT_*`, are gathered in `Configuration`, which a run takes as an argument: it is the field
`config` of the machine's state, at any value.
-/

namespace Sys2Proof

namespace Config

/-- `NSYM`, rule R2: symbols per telegram. -/
@[simp] abbrev nsym : Nat := 12

/-- `SYNC_MIN`, rules R2 and R106: a processed duration is a sync gap when it is strictly longer (31 * 120). -/
@[simp] abbrev syncMin : Nat := 3720

/-- `SYNC_DIV`, rules R2 and R106: periods in a sync gap. -/
@[simp] abbrev syncDiv : Nat := 31

/-- `TERM_MIN`, rules R2 and R113: least length of the terminating gap, in periods, inclusive. -/
@[simp] abbrev termMin : Nat := 25

/-- `TERM_MAX`, rules R2 and R113: greatest length of the terminating gap, in periods, inclusive. -/
@[simp] abbrev termMax : Nat := 36

/-- Band factor of `min1Period`, in tenths (rules R2, R107). -/
@[simp] abbrev min1Tenths : Nat := 4

/-- Band factor of `max1Period`, in tenths (rules R2, R107). -/
@[simp] abbrev max1Tenths : Nat := 16

/-- Band factor of `min3Period`, in tenths (rules R2, R107). -/
@[simp] abbrev min3Tenths : Nat := 23

/-- Band factor of `max3Period`, in tenths (rules R2, R107). -/
@[simp] abbrev max3Tenths : Nat := 37

/-- Default of `TW` (rule R2, D2). -/
@[simp] abbrev twDefault : Nat := 32

end Config

/-- A field of a tuple (rule R84); letters and numbers are zero-based before a layout sees them (R64, R90 (d)). -/
inductive Field where
  | address
  | device
  | group
  | systemCode
  | on
deriving DecidableEq, Repr

/-- Where one symbol of a telegram comes from: a constant, a function of one bit of one field, or a function of one
comparison of one field (rule R90 (c)). The comparison is of the bits of the field that the layout uses, so that an
out-of-range value wraps (R90 (e)). The spec does not say more of a comparison; that it is an unsigned one with a fixed
number, and has the three outcomes below, is the model's choice (assumption 22, DESIGN CHOICE). -/
inductive TritSource where
  | const (t : Trit)
  /-- By bit `k` of the field. -/
  | bit (field : Field) (k : Nat) (one zero : Trit)
  /-- By the order of the field's bits under `mask` and the number `n`: mask 7 leaves bits 2:0, mask 65535 every bit. -/
  | compare (field : Field) (mask n : Nat) (less equal greater : Trit)
deriving DecidableEq, Repr

/-- A bit-to-trit layout: twelve symbols (rules R57, R90). -/
abbrev Layout := Vector TritSource Config.nsym

/-- The OPEN parameters `LAYOUT_*` (rules R2, R84). `LAYOUT_KAKU` has a table for each value of `hasGroup`, as it has in
rules R85 and R86. -/
structure Layouts where
  /-- `LAYOUT_KAKU` with `hasGroup = 0`. -/
  kaku : Layout
  /-- `LAYOUT_KAKU` with `hasGroup = 1`. -/
  kakuGroup : Layout
  /-- `LAYOUT_ACTION`. -/
  action : Layout
  /-- `LAYOUT_BLOKKER`. -/
  blokker : Layout
  /-- `LAYOUT_ELRO`. -/
  elro : Layout
deriving DecidableEq, Repr

/-- The OPEN parameters of rule R2. -/
structure Configuration where
  /-- `TW`, the width of the microsecond clock and of the timestamp registers. -/
  tw : Nat
  /-- The four `LAYOUT_*`. -/
  layouts : Layouts
deriving DecidableEq, Repr

end Sys2Proof
end

