-- ==== Sys2Proof/Machine/Layouts.lean ====
section
/-!
DEFINITION. The bit-to-trit layouts (rules R84, R90): what a layout makes of a tuple's fields, and the default tables of
rules R85 to R89. The spec gives those tables as general knowledge, not from its source (assumption 2); they are only
the value `State.reset` has for the OPEN parameters `LAYOUT_*`.
-/

namespace Sys2Proof.Machine

/-- The fields of a tuple as a layout sees them: letters and numbers zero-based (rules R64, R90 (d)), a field the form
does not have at 0. -/
structure TupleFields where
  address : Nat := 0
  device : Nat := 0
  group : Nat := 0
  systemCode : Nat := 0
  on : Bool := false
deriving DecidableEq, Repr

/-- The value of a field. -/
def fieldValue (fs : TupleFields) : Field → Nat
  | .address => fs.address
  | .device => fs.device
  | .group => fs.group
  | .systemCode => fs.systemCode
  | .on => fs.on.toNat

/-- One symbol of a tuple's telegram (rule R90 (c), (e)). -/
def sourceSymbol (fs : TupleFields) : TritSource → Trit
  | .const t => t
  | .bit field k one zero => if (fieldValue fs field).testBit k then one else zero
  | .compare field mask n less equal greater =>
    if fieldValue fs field &&& mask < n then less
    else if fieldValue fs field &&& mask = n then equal
    else greater

/-- The twelve symbols a layout gives (rules R84, R90 (a), (b)). -/
def layoutSymbols (layout : Layout) (fs : TupleFields) : List Trit := layout.toList.map (sourceSymbol fs)

/-- A layout from its symbol sources by index, as the tables of rules R85 to R89 give them. -/
def layoutOf (source : Nat → TritSource) : Layout :=
  ⟨((List.range Config.nsym).map source).toArray, by simp⟩

/-- What the two `KaKu` tables share (rules R85, R86): the fixed symbols and the last. -/
def kakuTail (i : Nat) : TritSource :=
  if i = 8 then .const .low
  else if i < 11 then .const .float
  else .bit .on 0 .float .low

/-- Default `LAYOUT_KAKU` without a group (rule R85). -/
def layoutKaku : Layout := layoutOf fun i =>
  if i < 4 then .bit .address i .float .low
  else if i < 8 then .bit .device (i - 4) .float .low
  else kakuTail i

/-- Default `LAYOUT_KAKU` with a group (rule R86). -/
def layoutKakuGroup : Layout := layoutOf fun i =>
  if i < 4 then .bit .address i .float .low
  else if i < 6 then .bit .device (i - 4) .float .low
  else if i < 8 then .bit .group (i - 6) .float .low
  else kakuTail i

/-- The one-hot device of the `Action` and `Elro` tables, all 8 bits of the letter compared (rules R87, R89). -/
def deviceOneHot (n : Nat) : TritSource := .compare .device 255 n .float .low .float

/-- Default `LAYOUT_ACTION` (rule R87). -/
def layoutAction : Layout := layoutOf fun i =>
  if i < 5 then .bit .systemCode i .high .float
  else if i < 10 then deviceOneHot (i - 5)
  else if i = 10 then .bit .on 0 .float .low
  else .bit .on 0 .low .float

/-- Default `LAYOUT_BLOKKER` (rule R88). -/
def layoutBlokker : Layout := layoutOf fun i =>
  if 1 ≤ i ∧ i ≤ 3 then .bit .device (i - 1) .low .high
  else if i = 8 then .bit .on 0 .high .low
  else .const .low

/-- Default `LAYOUT_ELRO` (rule R89). -/
def layoutElro : Layout := layoutOf fun i =>
  if i < 5 then .bit .systemCode i .low .float
  else if i < 10 then deviceOneHot (i - 5)
  else if i = 10 then .bit .on 0 .low .float
  else .bit .on 0 .float .low

/-- The spec's defaults of `LAYOUT_*` (rules R85 to R89, D18). -/
def defaultLayouts : Layouts where
  kaku := layoutKaku
  kakuGroup := layoutKakuGroup
  action := layoutAction
  blokker := layoutBlokker
  elro := layoutElro

/-- The spec's defaults of all OPEN parameters (rule R2). -/
def defaultConfiguration : Configuration where
  tw := Config.twDefault
  layouts := defaultLayouts

end Sys2Proof.Machine
end

