-- ==== Sys2Proof/Machine/State.lean ====
section
/-!
DEFINITION. The state of the core (10_state.md): the decoder's registers, the encoder's registers, the one flag the
two share, the OPEN parameters the run is taken with (rule R2), and the model's own fields for what the ports carry.
Plain data.
-/

namespace Sys2Proof.Machine

/-- The 51 values of the decoder's sequencer `state`, under the names of rule R13. -/
inductive SeqState where
  /-- `-1`, waiting for sync. -/
  | syncWait
  /-- `0..47`: symbol index `n div 4`, sub-state `n mod 4`. -/
  | symbol (n : Fin 48)
  /-- `48`: the next processed duration must be short. -/
  | finalSync1
  /-- `49`: the next processed duration must be the terminating gap. -/
  | finalSync2
deriving DecidableEq, Repr

/-- The decoder's registers (rules R13 to R18, R20, R21), except `enabled`, which it shares with the encoder. The period,
the bands and the timestamps have `TW` bits (rules R16, R17); they are the numbers those bits show, and
`Safety.DecoderInv` says that the bits suffice. -/
structure Decoder where
  /-- The sequencer (rule R13). -/
  state : SeqState
  /-- Estimated period in microseconds (rules R14, R16). -/
  period : Nat
  /-- Least interval the noise filter keeps (rules R14, R107). -/
  min1Period : Nat
  /-- Greatest short interval (rules R14, R107). -/
  max1Period : Nat
  /-- Least long interval (rules R14, R107). -/
  min3Period : Nat
  /-- Greatest long interval (rules R14, R107). -/
  max3Period : Nat
  /-- The 4-bit shift pattern, newest interval in bit 0 (rule R15). -/
  receivedBit : BitVec 4
  /-- The base-3 accumulator (rule R15). -/
  receivedCode : BitVec 32
  /-- The last valid candidate since the last sync detection (rule R15). -/
  previousCode : BitVec 32
  /-- Consecutive candidates equal to `previousCode` (rule R15). -/
  repeats : BitVec 8
  /-- Where the interval under measurement began (rule R17). -/
  t0 : Stamp
  /-- The recorded edge before the newest (rule R17). -/
  t1 : Stamp
  /-- The newest recorded edge (rule R17). -/
  t2 : Stamp
  /-- The noise filter's pending skip (rule R18). -/
  skip : Bool
  /-- The re-entrancy guard (rule R20). -/
  inCallback : Bool
  /-- The threshold of the repeat confirmation (rule R21). -/
  minRepeats : BitVec 8
deriving DecidableEq, Repr

/-- The encoder's registers (rule R22). -/
structure Encoder where
  /-- The level driven on `tx`; `true` is HIGH. -/
  txLevel : Bool
  /-- A transmission is in progress. -/
  txBusy : Bool
  /-- `periodMicros` of the transmission. -/
  txPeriod : BitVec 9
  /-- The 12 symbols, `sym[i]` in bits `23-2i : 22-2i`. -/
  txSymbols : BitVec 24
  /-- Number of frames to send. -/
  txRepeats : BitVec 8
  /-- Frame in progress. -/
  txRep : BitVec 8
  /-- Symbol in progress; 12 is the terminating sync. -/
  txSym : BitVec 4
  /-- Segment in progress within the symbol. -/
  txSeg : BitVec 2
  /-- The transmission must set `enabled` when it ends. -/
  txRestore : Bool
  /-- `clk_us` at the start of the segment in progress. -/
  txSegStart : Stamp
deriving DecidableEq, Repr

/-- The `Decoded(code, period)` event, two 32-bit values (rules R12, R170). -/
structure DecodedEvent where
  code : Word
  period : Word
deriving DecidableEq, Repr

/-- What an operation puts on the result ports (rule R73). -/
inductive Result where
  /-- No result. -/
  | none
  /-- A result on `r`. -/
  | word (r : Word)
  /-- Results on `r`, `r1`, `r2`. -/
  | fields (r r1 r2 : Word)
  /-- The record of `READ_STATE`, words 0 to 11 (rule R154); words 9 to 11 have `TW` bits. -/
  | record (words : List Nat)
deriving DecidableEq, Repr

/-- What can come from outside (rule R12). -/
inductive Stimulus where
  /-- Port `rx_edge`: one transition of the receive line. It carries nothing: the block samples the clock at the
  transition (rules R12, R168, R203). -/
  | rxEdge
  /-- An encoded word: a request at the operation port, or, from a test bench, a word of another format
  (rules R72, R73; assumptions 6 to 9, 14). -/
  | word (w : Encoded)
deriving DecidableEq, Repr

/-- A stimulus with the clock value it arrives at. Rules R44 and R169: when it and the end of a segment fall at the same
instant either order is allowed; `beforeTx` says which one this run takes. -/
structure Arrival where
  time : Stamp
  beforeTx : Bool
  what : Stimulus
deriving DecidableEq, Repr

/-- The machine. `decoder`, `encoder` and `enabled` are the architectural state, all of it (rule R10). `config` is the
argument the OPEN parameters are (rules R2, R10); no operation writes it. The other four fields are the model's own: the
ports of rule R12 and what is still to arrive (assumption 4). -/
structure State where
  /-- The OPEN parameters `TW` and `LAYOUT_*` (rule R2), of any value. -/
  config : Configuration
  /-- Decoder registers. -/
  decoder : Decoder
  /-- Encoder registers. -/
  encoder : Encoder
  /-- The flag the two share (rules R1, R19). -/
  enabled : Bool
  /-- Port `clk_us` at the operation being executed. -/
  clk : Stamp
  /-- What arrives from outside, in its total order (rule R44). -/
  inbox : List Arrival
  /-- The result ports after the operation just executed. -/
  result : Result
  /-- Port `decoded`: the event the operation just executed emitted, if any. -/
  decoded : Option DecodedEvent
deriving DecidableEq, Repr

/-- Why the machine stops with a fault: never. No operation of the core raises an exception, returns an error code
or records a cause (rule R165), and no behaviour has the treatment `fault` or `stuck` (93_implementation_defined.md).
The type is empty, so a claim that no fault occurs is true of the hardware too: safe. -/
inductive Fault where
deriving DecidableEq, Repr

/-- Why the machine gives no next state. -/
inductive Refusal where
  /-- Raised by an arm of `exec` whose instruction has no meaning yet; no arm does. Safe: nothing is claimed. -/
  | notModelled (mnemonic : String)
  /-- Raised by `step` on a line pattern that is no encoding (rules R61, R65), which no port of the hardware
  carries. Safe: nothing is claimed about such a word. -/
  | notAnEncoding (why : Reject)
deriving DecidableEq, Repr

/-- The decoder right after reset (rules R24, R185). -/
def Decoder.reset : Decoder where
  state := .syncWait
  period := 0
  min1Period := 0
  max1Period := 0
  min3Period := 0
  max3Period := 0
  receivedBit := 0
  receivedCode := 0
  previousCode := 0
  repeats := 0
  t0 := 0
  t1 := 0
  t2 := 0
  skip := false
  inCallback := false
  minRepeats := 0

/-- The encoder right after reset: every register 0 (rules R22, R24). -/
def Encoder.reset : Encoder where
  txLevel := false
  txBusy := false
  txPeriod := 0
  txSymbols := 0
  txRepeats := 0
  txRep := 0
  txSym := 0
  txSeg := 0
  txRestore := false
  txSegStart := 0

/-- The machine of any configuration right after reset (rules R24, R185): `enabled` is 1. The clock has no reset value
the block depends on (rule R194); the model names 0 (assumption 5). Nothing has arrived yet (rule R186). -/
def State.resetWith (config : Configuration) : State where
  config := config
  decoder := Decoder.reset
  encoder := Encoder.reset
  enabled := true
  clk := 0
  inbox := []
  result := .none
  decoded := none

/-- The machine right after reset, with the spec's defaults of the OPEN parameters (rule R2; assumptions 1 and 2). -/
def State.reset : State := State.resetWith defaultConfiguration

end Sys2Proof.Machine
end

