-- ==== Sys2Proof/Machine/Operands.lean ====
section
/-!
DEFINITION. Operand forms: the fields of a telegram word (R55), symbol vectors and codes (R56, R57, R80, R82),
letters and numbers of a tuple and the layout its tag selects (R64, R73, R84).
-/

namespace Sys2Proof.Machine

/-- `periodMicros`, bits 31:23 of a telegram word (rules R55, R81). -/
def periodField (w : Word) : BitVec 9 := w.extractLsb' 23 9

/-- `repeatLog2`, bits 22:20 of a telegram word (rules R55, R81). -/
def repeatField (w : Word) : BitVec 3 := w.extractLsb' 20 3

/-- `code20`, bits 19:0 of a telegram word (rules R55, R81). -/
def codeField (w : Word) : BitVec 20 := w.extractLsb' 0 20

/-- The word with the three fields in their places (rule R55). -/
def assembleWord (p : BitVec 9) (r : BitVec 3) (c : BitVec 20) : Word := p ++ r ++ c

/-- The indices 0 to 11 of a symbol array (rule R57). -/
def symIndices : List Nat := List.range Config.nsym

/-- `sym[i]`, bits `23-2i : 22-2i` of a symbol vector (rule R57). -/
def symAt (v : BitVec 24) (i : Nat) : BitVec 2 := v.extractLsb' (22 - 2 * i) 2

/-- The twelve symbol values of a vector, symbol 0 first (rule R57). -/
def symDigits (v : BitVec 24) : List Nat := symIndices.map fun i => (symAt v i).toNat

/-- Some symbol of the vector has the reserved value 3 (rule R66). -/
def hasReservedSymbol (v : BitVec 24) : Bool := (symDigits v).any fun d => d == 3

/-- The value of digits to a base, the first most significant (rules R41, R56, R57). -/
def digitValue (base : Nat) (ds : List Nat) : Nat := ds.foldl (fun v d => v * base + d) 0

/-- The base-3 value of a symbol sequence, first symbol most significant (rules R56, R80). -/
def codeOfDigits (ds : List Nat) : Nat := digitValue 3 ds

/-- The code of a symbol vector (rules R56, R80). -/
def codeOfSymv (v : BitVec 24) : Nat := codeOfDigits (symDigits v)

/-- Symbol values packed two bits each, the first in the most significant place (rule R57). -/
def packDigits (ds : List Nat) : BitVec 24 := BitVec.ofNat 24 (digitValue 4 ds)

/-- Symbols packed two bits each (rule R57). -/
def packTrits (ts : List Trit) : BitVec 24 := packDigits (ts.map Trit.toNat)

/-- Symbol `i` of a code: `(c div 3^(11-i)) mod 3` (rules R56, R82). -/
def codeDigit (c i : Nat) : Nat := c / 3 ^ (11 - i) % 3

/-- The symbol vector of a 20-bit code (rule R82). -/
def codeToSymv (c : BitVec 20) : BitVec 24 := packDigits (symIndices.map (codeDigit c.toNat))

/-- Packing (rule R80): the code ORed with `periodMicros << 23` and `repeatLog2 << 20`, truncated to 32 bits,
nothing masked (R68). -/
def packTelegram (v : BitVec 24) (periodMicros repeatLog2 : Word) : Word :=
  BitVec.ofNat 32 (codeOfSymv v) ||| (periodMicros <<< 23) ||| (repeatLog2 <<< 20)

/-- A letter made zero-based by subtracting `'A'` = 65, modulo its 8 bits (rule R64). -/
def letterIndex (letter : BitVec 8) : BitVec 8 := letter - 65#8

/-- A 1-based number made zero-based, modulo its 16 bits (rule R64). -/
def numberIndex (number : BitVec 16) : BitVec 16 := number - 1#16

/-- A 1-based group number made zero-based, modulo its 4 bits (rule R86). -/
def groupIndex (group : BitVec 4) : BitVec 4 := group - 1#4

/-- The fields of a `KaKu` tuple without a group, zero-based (rules R64, R85). -/
def kakuFields (address : BitVec 8) (device : BitVec 16) (on : Bool) : TupleFields where
  address := (letterIndex address).toNat
  device := (numberIndex device).toNat
  on := on

/-- The fields of a `KaKu` tuple with a group, zero-based (rules R64, R86). -/
def kakuGroupFields (address : BitVec 8) (group : BitVec 4) (device : BitVec 16) (on : Bool) : TupleFields :=
  { kakuFields address device on with group := (groupIndex group).toNat }

/-- The fields of an `Action` or `Elro` tuple, the device letter zero-based (rules R64, R87, R89). -/
def letterFields (systemCode : BitVec 5) (device : BitVec 8) (on : Bool) : TupleFields where
  systemCode := systemCode.toNat
  device := (letterIndex device).toNat
  on := on

/-- The fields of a `Blokker` tuple, the device number zero-based (rules R64, R88). -/
def blokkerFields (device : BitVec 16) (on : Bool) : TupleFields where
  device := (numberIndex device).toNat
  on := on

/-- `LAYOUT_KAKU(address, device, on, hasGroup, group)` (rules R84 to R86); `group` counts only with `hasGroup = 1`
(R73). -/
def kakuSymbols (ls : Layouts) (address : BitVec 8) (device : BitVec 16) (on hasGroup : Bool) (group : BitVec 4) :
    List Trit :=
  if hasGroup then layoutSymbols ls.kakuGroup (kakuGroupFields address group device on)
  else layoutSymbols ls.kaku (kakuFields address device on)

/-- `LAYOUT_ACTION(systemCode, device, on)` (rules R84, R87). -/
def actionSymbols (ls : Layouts) (systemCode : BitVec 5) (device : BitVec 8) (on : Bool) : List Trit :=
  layoutSymbols ls.action (letterFields systemCode device on)

/-- `LAYOUT_BLOKKER(device, on)` (rules R84, R88). -/
def blokkerSymbols (ls : Layouts) (device : BitVec 16) (on : Bool) : List Trit :=
  layoutSymbols ls.blokker (blokkerFields device on)

/-- `LAYOUT_ELRO(systemCode, device, on)` (rules R84, R89). -/
def elroSymbols (ls : Layouts) (systemCode : BitVec 5) (device : BitVec 8) (on : Bool) : List Trit :=
  layoutSymbols ls.elro (letterFields systemCode device on)

/-- The symbols of a tuple operand, by the layout its tag selects (rule R84, fields of rule R73). -/
def tupleSymbols (ls : Layouts) (tuple : Word) : List Trit :=
  let on := tuple.getLsbD 2
  match (tuple.extractLsb' 0 2).toNat with
  | 0 => kakuSymbols ls (tuple.extractLsb' 8 8) (tuple.extractLsb' 16 16) on (tuple.getLsbD 3) (tuple.extractLsb' 4 4)
  | 1 => actionSymbols ls (tuple.extractLsb' 8 5) (tuple.extractLsb' 16 8) on
  | 2 => blokkerSymbols ls (tuple.extractLsb' 16 16) on
  | _ => elroSymbols ls (tuple.extractLsb' 8 5) (tuple.extractLsb' 16 8) on

/-- The telegram word of a symbol list (last line of rule R84). -/
def telegramOfTrits (ts : List Trit) (periodMicros repeatLog2 : Word) : Word :=
  packTelegram (packTrits ts) periodMicros repeatLog2

end Sys2Proof.Machine
end

