-- ==== Sys2Proof/Machine/Flags.lean ====
section
/-!
DEFINITION. The comparisons the decoder, the codec and the timing generator make. All are made on exact integers
(rule R5).
-/

namespace Sys2Proof.Machine

/-- Rule R106: a processed duration longer than 3720 microseconds is a sync gap. -/
def isSyncGap (duration : Nat) : Bool := decide (Config.syncMin < duration)

/-- Rules R108, R112: short. -/
def isShort (d : Decoder) (duration : Nat) : Bool := decide (duration ≤ d.max1Period)

/-- Rule R108: long, both ends included. -/
def isLong (d : Decoder) (duration : Nat) : Bool :=
  decide (d.min3Period ≤ duration) && decide (duration ≤ d.max3Period)

/-- Rule R113: a terminating gap of 25 to 36 periods, both ends included. -/
def isTerminalGap (d : Decoder) (duration : Nat) : Bool :=
  decide (Config.termMin * d.period ≤ duration) && decide (duration ≤ Config.termMax * d.period)

/-- Rule R104: the noise filter drops the edge: the newest interval is strictly shorter than `min1Period`, in any
state but `SYNC_WAIT`. -/
def isGlitch (tw : Nat) (d : Decoder) : Bool :=
  decide (d.state ≠ .syncWait) && decide (interval tw d.t2 d.t1 < d.min1Period)

/-- Rule R115: the repeat threshold is met. -/
def thresholdMet (d : Decoder) : Bool := decide (d.minRepeats.toNat ≤ d.repeats.toNat)

/-- Rule R83: the low 20 bits agree. -/
def sameCode (a b : Word) : Bool := (a &&& 0xFFFFF#32) == (b &&& 0xFFFFF#32)

/-- What an interval is to the state machine. -/
inductive IntervalClass where
  | short
  | long
  | gap
  | bad
deriving DecidableEq, Repr

/-- The class of a processed duration, in the state the decoder is in (rules R108, R112, R113). Short is tested before
long. `SYNC_WAIT` has no classes. -/
def classify (d : Decoder) (duration : Nat) : IntervalClass :=
  match d.state with
  | .syncWait => .bad
  | .symbol _ => if isShort d duration then .short else if isLong d duration then .long else .bad
  | .finalSync1 => if isShort d duration then .short else .bad
  | .finalSync2 => if isTerminalGap d duration then .gap else .bad

/-- Rule R134: `LEVEL(seg)`, HIGH for even segments. -/
def segLevel (seg : BitVec 2) : Bool := !seg.getLsbD 0

/-- Rule R140: a `SEND_*` is turned away, because a transmission is in progress or `periodMicros` is 0. -/
def sendRefused (e : Encoder) (word : Word) : Bool := e.txBusy || periodField word == 0#9

end Sys2Proof.Machine
end

