-- ==== Sys2Proof/Machine/Ops.lean ====
section
/-!
DEFINITION. The named operations on the registers: the parts of `EDGE` (rules R102 to R116) with the `Decoded` event
as ONE shared operation (rules R115, R171) and its return beside it (R172); the transmitter's sequencer (R132 to
R139); reset (R185); the ports. What depends on the width of the clock takes `tw` (rule R2).
-/

namespace Sys2Proof.Machine

/-! ## Decoder -/

/-- Rule R102: the window takes the new edge; `t[0]` stays. -/
def shiftWindow (now : Stamp) (d : Decoder) : Decoder := { d with t1 := d.t2, t2 := now }

/-- Rule R105: the duration an edge consumes. -/
def pendingDuration (tw : Nat) (d : Decoder) : Nat := interval tw d.t1 d.t0

/-- Rule R105: `t[0] <- t[1]`. -/
def takeInterval (d : Decoder) : Decoder := { d with t0 := d.t1 }

/-- `floor(period * tenths / 10)` (rules R5, R107); it fits `TW` bits (rule R16). -/
def band (period tenths : Nat) : Nat := period * tenths / 10

/-- Rules R106, R107: a sync gap was found. -/
def detectSync (duration : Nat) (d : Decoder) : Decoder :=
  let period := duration / Config.syncDiv
  { d with
    period := period
    receivedCode := 0
    previousCode := 0
    repeats := 0
    min1Period := band period Config.min1Tenths
    max1Period := band period Config.max1Tenths
    min3Period := band period Config.min3Tenths
    max3Period := band period Config.max3Tenths
    state := .symbol 0 }

/-- Rule R116: abort; only `state` is written. -/
def abort (d : Decoder) : Decoder := { d with state := .syncWait }

/-- Rule R109: the new bit enters `receivedBit` at bit 0. -/
def shiftBit (bit : Bool) (d : Decoder) : Decoder :=
  { d with receivedBit := (d.receivedBit <<< 1) ||| (if bit then 1#4 else 0#4) }

/-- Rule R110: the trit of a pattern, if it is legal. -/
def patternTrit (p : BitVec 4) : Option Trit :=
  if p = 0b0101#4 then some .low
  else if p = 0b1010#4 then some .high
  else if p = 0b0110#4 then some .float
  else none

/-- Rule R110: the trit enters the accumulator. -/
def accumulate (t : Trit) (d : Decoder) : Decoder :=
  { d with receivedCode := d.receivedCode * 3#32 + BitVec.ofNat 32 t.toNat }

/-- Rule R111: state 47 advances to 48. -/
def nextSymbolState (n : Fin 48) : SeqState :=
  if h : n.val + 1 < 48 then .symbol ⟨n.val + 1, h⟩ else .finalSync1

/-- Rule R111: advance by one state. -/
def advance (n : Fin 48) (d : Decoder) : Decoder := { d with state := nextSymbolState n }

/-- Rules R109 to R111: a classified interval in state `n` of 0..47. The pattern is checked at the fourth
sub-state. -/
def acceptBit (n : Fin 48) (bit : Bool) (d : Decoder) : Decoder :=
  let d := shiftBit bit d
  if n.val % 4 = 3 then
    match patternTrit d.receivedBit with
    | some t => advance n (accumulate t d)
    | none => abort d
  else advance n d

/-- Rule R114: repeat accounting. -/
def accountRepeat (d : Decoder) : Decoder :=
  if d.receivedCode = d.previousCode then { d with repeats := d.repeats + 1#8 }
  else { d with repeats := 1#8, previousCode := d.receivedCode }

/-- Rules R115, R171: the core's one trap-like entry. With the guard clear the event is emitted and the guard set;
with the guard set the candidate is dropped. In either case the decoder returns to `SYNC_WAIT`; nothing is saved. The
event carries 32 bits of the period (R12; assumption 20). -/
def deliver (d : Decoder) : Decoder × Option DecodedEvent :=
  if d.inCallback then ({ d with state := .syncWait }, none)
  else ({ d with inCallback := true, state := .syncWait }, some ⟨d.receivedCode, BitVec.ofNat 32 d.period⟩)

/-- Rules R153, R172: the consumer's return: the guard is cleared and nothing is restored. -/
def callbackReturn (d : Decoder) : Decoder := { d with inCallback := false }

/-- Rule R115, threshold not met: the next frame follows with the same estimate. -/
def continueFrame (d : Decoder) : Decoder := { d with receivedCode := 0, state := .symbol 0 }

/-- Rules R113 to R115: a valid terminating gap makes `receivedCode` a candidate. -/
def candidate (d : Decoder) : Decoder × Option DecodedEvent :=
  let d := accountRepeat d
  if thresholdMet d then deliver d else (continueFrame d, none)

/-- Rules R108 to R116: one classified interval in the states 0 to 49. Classes mean nothing in `SYNC_WAIT`. -/
def consumeClass (c : IntervalClass) (d : Decoder) : Decoder × Option DecodedEvent :=
  match d.state with
  | .syncWait => (d, none)
  | .symbol n =>
    match c with
    | .short => (acceptBit n false d, none)
    | .long => (acceptBit n true d, none)
    | .gap => (abort d, none)
    | .bad => (abort d, none)
  | .finalSync1 =>
    match c with
    | .short => ({ d with state := .finalSync2 }, none)
    | .long => (abort d, none)
    | .gap => (abort d, none)
    | .bad => (abort d, none)
  | .finalSync2 =>
    match c with
    | .gap => candidate d
    | .short => (abort d, none)
    | .long => (abort d, none)
    | .bad => (abort d, none)

/-- The state machine of rule R100 on a processed duration. -/
def consumeDuration (duration : Nat) (d : Decoder) : Decoder × Option DecodedEvent :=
  match d.state with
  | .syncWait => (if isSyncGap duration then detectSync duration d else d, none)
  | _ => consumeClass (classify d duration) d

/-- Rule R100 after the `enabled` check: window, pending skip, noise filter, duration, state machine. -/
def edgeStep (tw : Nat) (now : Stamp) (d : Decoder) : Decoder × Option DecodedEvent :=
  let d := shiftWindow now d
  if d.skip then ({ d with skip := false }, none)
  else if isGlitch tw d then ({ d with skip := true }, none)
  else consumeDuration (pendingDuration tw d) (takeInterval d)

/-- Several classified intervals one after another; the event is the last one emitted. -/
def consumeClasses (cs : List IntervalClass) (d : Decoder) : Decoder × Option DecodedEvent :=
  cs.foldl (fun acc c => ((consumeClass c acc.1).1, (consumeClass c acc.1).2.or acc.2)) (d, none)

/-- The classes of a received pattern, bit 3 first: 0 short, 1 long (rule R59). -/
def patternClasses (p : BitVec 4) : List IntervalClass :=
  [p.getLsbD 3, p.getLsbD 2, p.getLsbD 1, p.getLsbD 0].map fun b => if b then .long else .short

/-! ## Ports and flags of the whole machine -/

/-- The decoder's new registers, and its event on the port `decoded`. -/
def State.withDecoder (s : State) (r : Decoder × Option DecodedEvent) : State :=
  { s with decoder := r.1, decoded := r.2.or s.decoded }

/-- A value on the result ports (rule R73). -/
def State.withResult (s : State) (r : Result) : State := { s with result := r }

/-- Ports carry an event or a result only while the operation that produced it is the latest. -/
def State.quiet (s : State) : State := { s with result := .none, decoded := none }

/-- The clock as an operation samples it: what the port `clk_us` shows on its `TW` bits (rule R12). -/
def State.now (s : State) : Stamp := wrap s.config.tw s.clk

/-- The port `tx` (rules R12, R135). -/
def State.tx (s : State) : Bool := s.encoder.txLevel

/-- The port `tx_busy` (rule R12). -/
def State.txBusyPort (s : State) : Bool := s.encoder.txBusy

/-- The decoder takes classified intervals from the line: it is enabled and no edge is about to be skipped
(rules R101, R103). -/
def State.listening (s : State) : Bool := s.enabled && !s.decoder.skip

/-- Reception of classified intervals that the filter keeps, the meaning of the AIR rows (assumption 7). -/
def State.receive (cs : List IntervalClass) (s : State) : State :=
  if s.listening then s.withDecoder (consumeClasses cs s.decoder) else s

/-- Rules R155, R185: every register takes its reset value; no event is emitted. Parameters, clock and
arrivals are not registers. -/
def State.resetRegisters (s : State) : State :=
  { s with decoder := Decoder.reset, encoder := Encoder.reset, enabled := true }

/-! ## Encoder -/

/-- Rule R134: segment lengths of a symbol, in periods. The value 3 has none. -/
def symbolLens (sym : BitVec 2) : List Nat :=
  match sym.toNat with
  | 0 => [1, 3, 1, 3]
  | 1 => [3, 1, 3, 1]
  | 2 => [1, 3, 3, 1]
  | _ => []

/-- Rule R134: segment lengths of the terminating sync. -/
def syncLens : List Nat := [1, 31]

/-- Rule R134: the row of the segment table being sent. -/
def segmentRow (e : Encoder) : List Nat :=
  if e.txSym.toNat < 12 then symbolLens (symAt e.txSymbols e.txSym.toNat)
  else if e.txSym.toNat = 12 then syncLens
  else []

/-- Rules R134, R137: `LEN(txSym, txSeg) * txPeriod`, the length of the segment in progress in microseconds; none
where the table has no such segment (never reached, rule R25). -/
def segmentMicros (e : Encoder) : Option Nat :=
  (segmentRow e)[e.txSeg.toNat]?.map fun len => len * e.txPeriod.toNat

/-- Rule R137: the clock value at which the segment in progress ends, if it ends. A segment that is not shorter than the
clock's whole range, which R137 rules out, never shows the elapsed time R136 asks for (assumption 21). -/
def segmentEnd (tw : Nat) (e : Encoder) : Option Stamp :=
  if e.txBusy then
    ((segmentMicros e).filter fun len => decide (len < 2 ^ tw)).map fun len => wrap tw (e.txSegStart + len)
  else none

/-- Rule R136's precondition: the segment in progress ends at `now`. -/
def segmentDue (tw : Nat) (e : Encoder) (now : Stamp) : Bool :=
  e.txBusy && decide (segmentMicros e = some (interval tw now e.txSegStart))

/-- Rule R136: `last`, the segment in progress is the last of its symbol. -/
def lastSegment (e : Encoder) : Bool :=
  (decide (e.txSym.toNat < 12) && e.txSeg == 3#2) || (e.txSym == 12#4 && e.txSeg == 1#2)

/-- Rule R132: `start_transmission(c, p, r, restore, now)`. -/
def startTransmission (c : BitVec 20) (p : BitVec 9) (r : BitVec 3) (restore : Bool) (now : Stamp) : Encoder where
  txLevel := true
  txBusy := true
  txPeriod := p
  txSymbols := codeToSymv c
  txRepeats := BitVec.ofNat 8 (2 ^ r.toNat)
  txRep := 0
  txSym := 0
  txSeg := 0
  txRestore := restore
  txSegStart := now

/-- A transmission of a telegram word's fields (rules R131, R132). -/
def startWord (word : Word) (restore : Bool) (now : Stamp) : Encoder :=
  startTransmission (codeField word) (periodField word) (repeatField word) restore now

/-- Rule R139: the transmission is over. -/
def finishTransmission (e : Encoder) : Encoder :=
  { e with txBusy := false, txLevel := false, txRep := 0, txSym := 0, txSeg := 0, txRestore := false }

/-- Rule R136: the next segment of the same symbol. -/
def nextSegment (e : Encoder) : Encoder :=
  { e with txSeg := e.txSeg + 1#2, txLevel := segLevel (e.txSeg + 1#2) }

/-- Rule R136: the first segment of the next symbol, or of the sync after symbol 11. -/
def nextSymbol (e : Encoder) : Encoder :=
  { e with txSym := e.txSym + 1#4, txSeg := 0, txLevel := segLevel 0 }

/-- Rule R136: the first segment of the next frame. -/
def nextFrame (e : Encoder) : Encoder :=
  { e with txRep := e.txRep + 1#8, txSym := 0, txSeg := 0, txLevel := segLevel 0 }

/-- Rules R136, R139: the segment in progress ends at `now`. -/
def txAdvance (now : Stamp) (s : State) : State :=
  let e := { s.encoder with txSegStart := now }
  if !lastSegment e then { s with encoder := nextSegment e }
  else if e.txSym.toNat < 12 then { s with encoder := nextSymbol e }
  else if e.txRep.toNat + 1 < e.txRepeats.toNat then { s with encoder := nextFrame e }
  else { s with encoder := finishTransmission e, enabled := e.txRestore || s.enabled }

/-- `k` segments run to their ends, the clock with them. -/
def runSegments : Nat → State → State
  | 0, s => s
  | k + 1, s =>
    match segmentEnd s.config.tw s.encoder with
    | some t => runSegments k (txAdvance t { s with clk := t })
    | none => s

/-- The encoder is at the first segment of a symbol of the given value (rules R133, R134). -/
def atSymbol (sym : BitVec 2) (e : Encoder) : Bool :=
  e.txBusy && decide (e.txSym.toNat < 12) && e.txSeg == 0#2 && symAt e.txSymbols e.txSym.toNat == sym

/-- The encoder is at the first segment of the terminating sync (rules R133, R134). -/
def atSync (e : Encoder) : Bool := e.txBusy && e.txSym == 12#4 && e.txSeg == 0#2

/-! ## What happens next -/

/-- What the next step does. -/
inductive NextUp where
  /-- Nothing is to come. -/
  | rest
  /-- The timing generator issues `TX_STEP` at this clock value. -/
  | segmentEnd (now : Stamp)
  /-- The first arrival is executed. -/
  | arrival (a : Arrival) (later : List Arrival)
deriving DecidableEq, Repr

/-- The first of the next arrival and the end of the segment in progress, both counted from the clock; at the same
instant the arrival's own choice of order (rules R44, R137, R169). -/
def nextUp (s : State) : NextUp :=
  match segmentEnd s.config.tw s.encoder, s.inbox with
  | none, [] => .rest
  | some t, [] => .segmentEnd t
  | none, a :: later => .arrival a later
  | some t, a :: later =>
    let untilArrival := interval s.config.tw a.time s.clk
    let untilEnd := interval s.config.tw t s.clk
    if untilArrival < untilEnd ∨ (untilArrival = untilEnd ∧ a.beforeTx) then .arrival a later else .segmentEnd t

/-- The clock has reached an arrival, which leaves the inbox. The port shows `TW` bits of its time (rule R12). -/
def State.takeArrival (s : State) (a : Arrival) (later : List Arrival) : State :=
  { s with clk := wrap s.config.tw a.time, inbox := later }

/-- The clock has reached the end of a segment. -/
def State.atClock (s : State) (now : Stamp) : State := { s with clk := now }

end Sys2Proof.Machine
end

