-- ==== Sys2Proof/Machine/Codec.lean ====
section
/-!
DEFINITION. Codec operations (40_codec.md, rules R80 to R89). None reads or writes a register (R23, R43). The forms of
`GET_TELEGRAM` run with the layouts of the configuration (rules R2, R84).
-/

namespace Sys2Proof.Machine

/-- `ENCODE_TELEGRAM` (rule R80). A vector that holds the reserved symbol 3 is turned away: no result (rules R66, R80
case (e), R167). -/
def execEncodeTelegram (symv : BitVec 24) (periodMicros repeatLog2 : Word) (s : State) :
    Host.Outcome State Fault Refusal :=
  if hasReservedSymbol symv then .next s
  else .next (s.withResult (.word (packTelegram symv periodMicros repeatLog2)))

/-- `UNPACK_TELEGRAM` (rule R81). -/
def execUnpackTelegram (word : Word) (s : State) : Host.Outcome State Fault Refusal :=
  .next (s.withResult
    (.fields ((periodField word).setWidth 32) ((repeatField word).setWidth 32) ((codeField word).setWidth 32)))

/-- `CODE_TO_SYMBOLS` (rule R82). -/
def execCodeToSymbols (code : BitVec 20) (s : State) : Host.Outcome State Fault Refusal :=
  .next (s.withResult (.word ((codeToSymv code).setWidth 32)))

/-- `IS_SAME_CODE` (rule R83). -/
def execIsSameCode (a b : Word) (s : State) : Host.Outcome State Fault Refusal :=
  .next (s.withResult (.word (if sameCode a b then 1#32 else 0#32)))

/-- `GET_TELEGRAM` of any tuple: the tag selects the layout (rule R84). -/
def execGetTelegram (tuple periodMicros repeatLog2 : Word) (s : State) : Host.Outcome State Fault Refusal :=
  .next (s.withResult (.word (telegramOfTrits (tupleSymbols s.config.layouts tuple) periodMicros repeatLog2)))

/-- `GET_TELEGRAM` of a `KaKu` tuple without a group (rule R85). -/
def execGetKaku (on : Bool) (address : BitVec 8) (device : BitVec 16) (periodMicros repeatLog2 : Word) (s : State) :
    Host.Outcome State Fault Refusal :=
  .next (s.withResult (.word (telegramOfTrits (kakuSymbols s.config.layouts address device on false 0) periodMicros repeatLog2)))

/-- `GET_TELEGRAM` of a `KaKu` tuple with a group (rule R86). -/
def execGetKakuGroup (on : Bool) (group : BitVec 4) (address : BitVec 8) (device : BitVec 16)
    (periodMicros repeatLog2 : Word) (s : State) : Host.Outcome State Fault Refusal :=
  .next (s.withResult (.word (telegramOfTrits (kakuSymbols s.config.layouts address device on true group) periodMicros repeatLog2)))

/-- `GET_TELEGRAM` of an `Action` tuple (rule R87). -/
def execGetAction (on : Bool) (systemCode : BitVec 5) (device : BitVec 8) (periodMicros repeatLog2 : Word)
    (s : State) : Host.Outcome State Fault Refusal :=
  .next (s.withResult (.word (telegramOfTrits (actionSymbols s.config.layouts systemCode device on) periodMicros repeatLog2)))

/-- `GET_TELEGRAM` of a `Blokker` tuple (rule R88). -/
def execGetBlokker (on : Bool) (device : BitVec 16) (periodMicros repeatLog2 : Word) (s : State) :
    Host.Outcome State Fault Refusal :=
  .next (s.withResult (.word (telegramOfTrits (blokkerSymbols s.config.layouts device on) periodMicros repeatLog2)))

/-- `GET_TELEGRAM` of an `Elro` tuple (rule R89). -/
def execGetElro (on : Bool) (systemCode : BitVec 5) (device : BitVec 8) (periodMicros repeatLog2 : Word)
    (s : State) : Host.Outcome State Fault Refusal :=
  .next (s.withResult (.word (telegramOfTrits (elroSymbols s.config.layouts systemCode device on) periodMicros repeatLog2)))

end Sys2Proof.Machine
end

