-- ==== Sys2Proof/Machine/Control.lean ====
section
/-!
DEFINITION. Control operations (43_control.md, rules R150 to R155), `NOP` (R72) and the reserved code (R76).
-/

namespace Sys2Proof.Machine

/-- `NOP` (rule R72): no effect at all. -/
def execNop (s : State) : Host.Outcome State Fault Refusal := .next s

/-- `ENABLE` (rule R150). -/
def execEnable (s : State) : Host.Outcome State Fault Refusal := .next { s with enabled := true }

/-- `DISABLE` (rule R151). -/
def execDisable (s : State) : Host.Outcome State Fault Refusal := .next { s with enabled := false }

/-- `SET_MIN_REPEATS v` (rule R152). -/
def execSetMinRepeats (v : BitVec 8) (s : State) : Host.Outcome State Fault Refusal :=
  .next { s with decoder := { s.decoder with minRepeats := v } }

/-- `CB_DONE` (rule R153). -/
def execCbDone (s : State) : Host.Outcome State Fault Refusal :=
  .next { s with decoder := callbackReturn s.decoder }

/-- `state` as an 8-bit two's-complement number (rules R13, R154). -/
def seqByte : SeqState → BitVec 8
  | .syncWait => 0xFF#8
  | .symbol n => BitVec.ofNat 8 n.val
  | .finalSync1 => 48#8
  | .finalSync2 => 49#8

/-- One bit of the record. -/
def recordBit (v : Bool) : BitVec 1 := if v then 1#1 else 0#1

/-- Word 0 of the record (rule R154): `repeats` 31:24, `receivedBit` 19:16, `txLevel` 12, `txBusy` 11, `inCallback`
10, `enabled` 9, `skip` 8, `state` 7:0; bits 23:20 and 15:13 are 0. -/
def recordWord0 (s : State) : Word :=
  s.decoder.repeats ++ 0#4 ++ s.decoder.receivedBit ++ 0#3 ++ recordBit s.encoder.txLevel ++
    recordBit s.encoder.txBusy ++ recordBit s.decoder.inCallback ++ recordBit s.enabled ++
    recordBit s.decoder.skip ++ seqByte s.decoder.state

/-- The record of rule R154, words 0 to 11, all taken at one instant. The words of the period and the bands have bits
31:0 (assumption 20), those of the window `TW` bits. -/
def stateRecord (s : State) : List Nat :=
  [(recordWord0 s).toNat, s.decoder.minRepeats.toNat, wrap 32 s.decoder.period,
   wrap 32 s.decoder.min1Period, wrap 32 s.decoder.max1Period, wrap 32 s.decoder.min3Period, wrap 32 s.decoder.max3Period,
   s.decoder.receivedCode.toNat, s.decoder.previousCode.toNat, s.decoder.t0, s.decoder.t1, s.decoder.t2]

/-- `READ_STATE` (rule R154). -/
def execReadState (s : State) : Host.Outcome State Fault Refusal :=
  .next (s.withResult (.record (stateRecord s)))

/-- `RESET` (rules R155, R185, R189). -/
def execReset (s : State) : Host.Outcome State Fault Refusal := .next s.resetRegisters

/-- The reserved code 0xF (rules R76, R167): no register changes and there is no result. -/
def execReservedF (s : State) : Host.Outcome State Fault Refusal := .next s

end Sys2Proof.Machine
end

