-- ==== Sys2Proof/Machine/Data.lean ====
section
/-!
DEFINITION. The rows of the opcode table that are data formats, not operations (30_encoding.md, rules R55, R57, R66).
Each is read as the datum put before the codec: its value stands on the result ports, and no register changes
(assumption 6).
-/

namespace Sys2Proof.Machine

/-- `TELEGRAM_WORD` (rule R55): the word that has the three fields in their places. -/
def execTelegramWord (periodMicros : BitVec 9) (repeatLog2 : BitVec 3) (code : BitVec 20) (s : State) :
    Host.Outcome State Fault Refusal :=
  .next (s.withResult (.word (assembleWord periodMicros repeatLog2 code)))

/-- `SYM.LOW` (rule R57): the value 0. -/
def execSymLow (s : State) : Host.Outcome State Fault Refusal :=
  .next (s.withResult (.word (BitVec.ofNat 32 Trit.low.toNat)))

/-- `SYM.HIGH` (rule R57): the value 1. -/
def execSymHigh (s : State) : Host.Outcome State Fault Refusal :=
  .next (s.withResult (.word (BitVec.ofNat 32 Trit.high.toNat)))

/-- `SYM.FLOAT` (rule R57): the value 2. -/
def execSymFloat (s : State) : Host.Outcome State Fault Refusal :=
  .next (s.withResult (.word (BitVec.ofNat 32 Trit.float.toNat)))

/-- `SYM.RESERVED` (rules R66, R167): turned away; no result and no register changes. -/
def execSymReserved (s : State) : Host.Outcome State Fault Refusal := .next s

/-- `SYMV` (rules R57, R66): the vector of its twelve symbols; turned away if one of them is the reserved value. -/
def execSymv (v : BitVec 24) (s : State) : Host.Outcome State Fault Refusal :=
  if hasReservedSymbol v then .next s
  else .next (s.withResult (.word ((packDigits (symDigits v)).setWidth 32)))

end Sys2Proof.Machine
end

