-- ==== Sys2Proof/Machine/Receiver.lean ====
section
/-!
DEFINITION. The signal decoder (41_decoder.md): `EDGE`, and the on-air patterns as the classified intervals they are
(rules R59, R65, R110, R112, R113; assumption 7).
-/

namespace Sys2Proof.Machine

/-- `EDGE now` (rules R100 to R116), with bits `TW-1:0` of the operand (R73). With `enabled = 0` nothing is written, not
even the window (R101). -/
def execEdge (now : Stamp) (s : State) : Host.Outcome State Fault Refusal :=
  let tw := s.config.tw
  if s.enabled then .next (s.withDecoder (edgeStep tw (wrap tw now) s.decoder)) else .next s

/-- `RX.TRIT0`: the intervals S L S L of one symbol (rules R59, R110). -/
def execRxTrit0 (s : State) : Host.Outcome State Fault Refusal := .next (s.receive [.short, .long, .short, .long])

/-- `RX.TRIT1`: the intervals L S L S of one symbol (rules R59, R110). -/
def execRxTrit1 (s : State) : Host.Outcome State Fault Refusal := .next (s.receive [.long, .short, .long, .short])

/-- `RX.TRIT2`: the intervals S L L S of one symbol (rules R59, R110). -/
def execRxTrit2 (s : State) : Host.Outcome State Fault Refusal := .next (s.receive [.short, .long, .long, .short])

/-- `RX.ILLEGAL`: the four intervals of a pattern that is no symbol (rules R65, R110, R116). -/
def execRxIllegal (pattern : BitVec 4) (s : State) : Host.Outcome State Fault Refusal :=
  .next (s.receive (patternClasses pattern))

/-- `RX.SYNC`: the short part and the gap of the terminating sync (rules R112 to R115). -/
def execRxSync (s : State) : Host.Outcome State Fault Refusal := .next (s.receive [.short, .gap])

end Sys2Proof.Machine
end

