-- ==== Sys2Proof/Machine/Transmitter.lean ====
section
/-!
DEFINITION. The signal encoder (42_encoder.md): `SEND_TELEGRAM`, `SEND_CODE`, `TX_STEP`, and the line patterns as the
segments that make them (rules R61, R133, R134; assumption 8).
-/

namespace Sys2Proof.Machine

/-- `SEND_TELEGRAM word` (rules R131, R140): the decoder is disabled and the transmission starts; turned away, nothing
changes. -/
def execSendTelegram (word : Word) (s : State) : Host.Outcome State Fault Refusal :=
  if sendRefused s.encoder word then .next s
  else .next { s with enabled := false, encoder := startWord word true s.now }

/-- `SEND_CODE word` (rules R132, R140): as `SEND_TELEGRAM` without the handling of `enabled`. -/
def execSendCode (word : Word) (s : State) : Host.Outcome State Fault Refusal :=
  if sendRefused s.encoder word then .next s
  else .next { s with encoder := startWord word false s.now }

/-- `TX_STEP` (rules R136, R139), at the clock value of the state. It is issued only when the segment in progress ends
(R137); at any other time there is none, and nothing changes (assumption 9). -/
def execTxStep (s : State) : Host.Outcome State Fault Refusal :=
  if segmentDue s.config.tw s.encoder s.now then .next (txAdvance s.now s) else .next s

/-- `TX.SYM0`: the line over the 8 periods of a symbol 0, from its first segment to its end (rules R61, R134). -/
def execTxSym0 (s : State) : Host.Outcome State Fault Refusal :=
  if atSymbol 0#2 s.encoder then .next (runSegments 4 s) else .next s

/-- `TX.SYM1`: the line over the 8 periods of a symbol 1 (rules R61, R134). -/
def execTxSym1 (s : State) : Host.Outcome State Fault Refusal :=
  if atSymbol 1#2 s.encoder then .next (runSegments 4 s) else .next s

/-- `TX.SYM2`: the line over the 8 periods of a symbol 2 (rules R61, R134). -/
def execTxSym2 (s : State) : Host.Outcome State Fault Refusal :=
  if atSymbol 2#2 s.encoder then .next (runSegments 4 s) else .next s

/-- `TX.SYNC`: the line over the 32 periods of the terminating sync (rules R61, R134). -/
def execTxSync (s : State) : Host.Outcome State Fault Refusal :=
  if atSync s.encoder then .next (runSegments 2 s) else .next s

end Sys2Proof.Machine
end

