-- ==== Sys2Proof/Machine/Dispatch.lean ====
section
/-!
DEFINITION. One arm for each constructor of `Instr`.
-/

namespace Sys2Proof.Machine

def exec (i : Instr) (s : State) : Host.Outcome State Fault Refusal :=
  match i with
  | .nop => Sys2Proof.Machine.execNop s
  | .enable => Sys2Proof.Machine.execEnable s
  | .disable => Sys2Proof.Machine.execDisable s
  | .setMinRepeats v => Sys2Proof.Machine.execSetMinRepeats v s
  | .cbDone => Sys2Proof.Machine.execCbDone s
  | .readState => Sys2Proof.Machine.execReadState s
  | .sendTelegram word => Sys2Proof.Machine.execSendTelegram word s
  | .sendCode word => Sys2Proof.Machine.execSendCode word s
  | .encodeTelegram symv p r => Sys2Proof.Machine.execEncodeTelegram symv p r s
  | .unpackTelegram word => Sys2Proof.Machine.execUnpackTelegram word s
  | .codeToSymbols code => Sys2Proof.Machine.execCodeToSymbols code s
  | .isSameCode a b => Sys2Proof.Machine.execIsSameCode a b s
  | .getTelegram tuple p r => Sys2Proof.Machine.execGetTelegram tuple p r s
  | .reset => Sys2Proof.Machine.execReset s
  | .edge now => Sys2Proof.Machine.execEdge now s
  | .reservedF => Sys2Proof.Machine.execReservedF s
  | .txStep => Sys2Proof.Machine.execTxStep s
  | .getKaku on address device p r => Sys2Proof.Machine.execGetKaku on address device p r s
  | .getKakuGroup on group address device p r => Sys2Proof.Machine.execGetKakuGroup on group address device p r s
  | .getAction on systemCode device p r => Sys2Proof.Machine.execGetAction on systemCode device p r s
  | .getBlokker on device p r => Sys2Proof.Machine.execGetBlokker on device p r s
  | .getElro on systemCode device p r => Sys2Proof.Machine.execGetElro on systemCode device p r s
  | .telegramWord p r c => Sys2Proof.Machine.execTelegramWord p r c s
  | .symLow => Sys2Proof.Machine.execSymLow s
  | .symHigh => Sys2Proof.Machine.execSymHigh s
  | .symFloat => Sys2Proof.Machine.execSymFloat s
  | .symReserved => Sys2Proof.Machine.execSymReserved s
  | .symv v => Sys2Proof.Machine.execSymv v s
  | .rxTrit0 => Sys2Proof.Machine.execRxTrit0 s
  | .rxTrit1 => Sys2Proof.Machine.execRxTrit1 s
  | .rxTrit2 => Sys2Proof.Machine.execRxTrit2 s
  | .rxIllegal pattern => Sys2Proof.Machine.execRxIllegal pattern s
  | .rxSync => Sys2Proof.Machine.execRxSync s
  | .txSym0 => Sys2Proof.Machine.execTxSym0 s
  | .txSym1 => Sys2Proof.Machine.execTxSym1 s
  | .txSym2 => Sys2Proof.Machine.execTxSym2 s
  | .txSync => Sys2Proof.Machine.execTxSync s

end Sys2Proof.Machine
end

