-- ==== Sys2Proof/Machine/Run.lean ====
section
/-!
DEFINITION. How what comes from outside becomes an operation of the block (rules R12, R72, R168).
-/

namespace Sys2Proof.Machine

/-- A word read by the decoder and executed; a word that is no encoding is refused by name. -/
def runWord (w : Encoded) (s : State) : Host.Outcome State Fault Refusal :=
  match decode w with
  | .ok i => exec i s
  | .error why => .refused (.notAnEncoding why)

/-- What a stimulus does once the clock has reached it. A transition of the receive line is exactly one `EDGE` with the
clock sampled at that instant, so the latency is 0 (rules R12, R168, R203). -/
def runStimulus (x : Stimulus) (s : State) : Host.Outcome State Fault Refusal :=
  match x with
  | .rxEdge => exec (.edge s.now) s
  | .word w => runWord w s

end Sys2Proof.Machine
end

