-- ==== Sys2Proof/Machine/Step.lean ====
section
/-!
DEFINITION. One step of the machine: whatever comes next, the timing generator's `TX_STEP` or an arrival
(rules R44, R136, R137, R168, R169).
-/

namespace Sys2Proof.Machine

/-- One step. The ports fall silent, the clock moves to what comes next, and that operation is executed whole
(rule R44). With nothing to come the machine rests (rules R186, R195). -/
def step (s : State) : Host.Outcome State Fault Refusal :=
  match nextUp s.quiet with
  | .rest => .next s.quiet
  | .segmentEnd now => exec .txStep (s.quiet.atClock now)
  | .arrival a later => runStimulus a.what (s.quiet.takeArrival a later)

/-- The state with the table's word as the next arrival, due at once and before any segment end. -/
def State.withFetchWord (s : State) (nbits w : Nat) : State :=
  { s with inbox := ⟨s.clk, true, .word (tableWord nbits w)⟩ :: s.inbox }

end Sys2Proof.Machine
end

