-- ==== Sys2Proof/Machine/Signal.lean ====
section
/-!
DEFINITION. What is seen from outside over many operations: a transmission as a list of segments (rules R60, R61,
R142), the pseudo-operations of rule R75, and the run of a list of operations with the events it emits.
-/

namespace Sys2Proof.Machine

/-- Levels and lengths in microseconds of consecutive segments, the first HIGH (rules R61, R134). -/
def alternate (p : Nat) : Bool → List Nat → List (Bool × Nat)
  | _, [] => []
  | level, len :: lens => (level, len * p) :: alternate p (!level) lens

/-- The segment lengths of one frame in periods: twelve symbols and the terminating sync (rules R60, R61). -/
def frameLens (v : BitVec 24) : List Nat := (symIndices.flatMap fun i => symbolLens (symAt v i)) ++ syncLens

/-- The segments of one frame (rules R60, R61). -/
def frameSegments (v : BitVec 24) (p : Nat) : List (Bool × Nat) := alternate p true (frameLens v)

/-- `segments(c, p, r)` of rule R142: `2^r` frames of the code's symbols, back to back. -/
def segments (c : BitVec 20) (p r : Nat) : List (Bool × Nat) :=
  (List.replicate (2 ^ r) (frameSegments (codeToSymv c) p)).flatten

/-- The line over the periods of the segments, one level for each period (format LINE, rule R61). -/
def linePattern (segs : List (Bool × Nat)) : List Bool := segs.flatMap fun g => List.replicate g.2 g.1

/-- Where consecutive durations start, counted from `t`. -/
def startsFrom (t : Nat) : List Nat → List Nat
  | [] => []
  | d :: ds => t :: startsFrom (t + d) ds

/-- The clock values at which the segments start when the first starts at `start` (rules R75, R142). -/
def edgeTimes (tw : Nat) (start : Stamp) (segs : List (Bool × Nat)) : List Stamp :=
  (startsFrom start (segs.map Prod.snd)).map (wrap tw)

/-- `FRAME(sym) @ (T, p)`: its 50 `EDGE` operations (rule R75). -/
def pseudoFrame (tw : Nat) (v : BitVec 24) (start : Stamp) (p : Nat) : List Instr :=
  (edgeTimes tw start (frameSegments v p)).map Instr.edge

/-- `TRANSMISSION(w) @ T`: the `EDGE` operations of a looped-back transmission (rule R75). -/
def pseudoTransmission (tw : Nat) (w : Word) (start : Stamp) : List Instr :=
  (edgeTimes tw start (segments (codeField w) (periodField w).toNat (repeatField w).toNat)).map Instr.edge

/-- `SEND proto(tuple), p, r`: `GET_TELEGRAM`, then `SEND_TELEGRAM` of its word (rule R75). -/
def pseudoSend (ls : Layouts) (tuple p r : Word) : List Instr :=
  [.getTelegram tuple p r, .sendTelegram (telegramOfTrits (tupleSymbols ls tuple) p r)]

/-- `WAIT_CB` (rule R75). -/
def pseudoWaitCb : List Instr := [.cbDone]

/-- A list of operations executed one after another (rule R44), with the events they emit, in order; `none` if one of
them gives no next state. -/
def runOps : List Instr → State → Option (State × List DecodedEvent)
  | [], s => some (s, [])
  | i :: is, s =>
    match exec i s.quiet with
    | .next s' => (runOps is s').map fun r => (r.1, s'.decoded.toList ++ r.2)
    | .fault _ => none
    | .refused _ => none

/-- `k` steps of the machine, up to the first that gives no next state. -/
def runSteps : Nat → State → Host.Outcome State Fault Refusal
  | 0, s => .next s
  | k + 1, s =>
    match step s with
    | .next s' => runSteps k s'
    | .fault r => .fault r
    | .refused r => .refused r

end Sys2Proof.Machine
end

