-- ==== Sys2Proof/Safety.lean ====
section
/-!
DEFINITION. What a good state is: the invariants of rules R16, R25, R103, R135 and R137, the self-reception guard of
rule R46, and the streams of arrivals that hardware can carry (R12, R72, R176). Everything holds for every configuration
that `GoodConfig` admits.
-/

namespace Sys2Proof.Safety

open Sys2Proof.Machine

/-- The clock is wide enough for the longest segment, 31 * 511 microseconds (rule R137: "far below `2^TW`"). Any layouts
will do (rule R90). -/
abbrev GoodConfig (config : Configuration) : Prop := 14 ≤ config.tw

/-- The four bands are those of the period (rules R25 (d), R107). -/
abbrev BandsFollowPeriod (d : Decoder) : Prop :=
  d.min1Period = d.period * 4 / 10 ∧ d.max1Period = d.period * 16 / 10 ∧
  d.min3Period = d.period * 23 / 10 ∧ d.max3Period = d.period * 37 / 10

/-- The period is one a sync gap can give, so that it and the bands fit `TW` bits (rule R16 (a), (b)). -/
abbrev PeriodFits (tw : Nat) (d : Decoder) : Prop := d.period ≤ (2 ^ tw - 1) / 31

/-- The timestamp registers of the decoder show `TW` bits (rule R17). -/
abbrev StampsInRange (tw : Nat) (d : Decoder) : Prop := d.t0 < 2 ^ tw ∧ d.t1 < 2 ^ tw ∧ d.t2 < 2 ^ tw

/-- How many trits `receivedCode` can hold in a state (rules R16 (d), R110). -/
def tritsHeld : SeqState → Nat
  | .syncWait => 12
  | .symbol n => n.val / 4
  | .finalSync1 => 12
  | .finalSync2 => 12

/-- The codes are codes of the trits received (rules R16 (d), R25 (b)). -/
abbrev CodesInRange (d : Decoder) : Prop :=
  d.receivedCode.toNat < 3 ^ tritsHeld d.state ∧ d.previousCode.toNat < 3 ^ 12

/-- While a frame is being received `repeats` can be incremented without wrapping (rule R16 (e)). -/
abbrev RepeatsHaveRoom (d : Decoder) : Prop := d.state ≠ .syncWait → d.repeats.toNat < 255

/-- A pending skip implies a state of 0..49 (rule R103). -/
abbrev SkipOnlyMidDecode (d : Decoder) : Prop := d.skip = true → d.state ≠ .syncWait

/-- The decoder's invariant. -/
abbrev DecoderInv (tw : Nat) (d : Decoder) : Prop :=
  BandsFollowPeriod d ∧ PeriodFits tw d ∧ StampsInRange tw d ∧ CodesInRange d ∧ RepeatsHaveRoom d ∧ SkipOnlyMidDecode d

/-- The sequencer is at a segment of the table, and the symbols are symbols (rule R25 (e), (f)). -/
abbrev SequencerInTable (e : Encoder) : Prop :=
  e.txSym.toNat ≤ 12 ∧ (e.txSym.toNat = 12 → e.txSeg.toNat ≤ 1) ∧ hasReservedSymbol e.txSymbols = false

/-- During a transmission: a frame is left to send, the period is not 0, and the line shows the segment's level
(rules R25 (e), R134, R140). -/
abbrev BusyFacts (e : Encoder) : Prop :=
  e.txBusy = true → e.txRep.toNat < e.txRepeats.toNat ∧ e.txPeriod ≠ 0#9 ∧ e.txLevel = segLevel e.txSeg

/-- With no transmission in progress the line idles LOW and the sequencer is cleared (rules R135, R139). -/
abbrev IdleFacts (e : Encoder) : Prop :=
  e.txBusy = false →
    e.txLevel = false ∧ e.txRep = 0#8 ∧ e.txSym = 0#4 ∧ e.txSeg = 0#2 ∧ e.txRestore = false

/-- The encoder's invariant. -/
abbrev EncoderInv (e : Encoder) : Prop := SequencerInTable e ∧ BusyFacts e ∧ IdleFacts e

/-- The end of the segment in progress is not in the past (rule R137). -/
abbrev SegmentEndAhead (s : State) : Prop :=
  s.encoder.txBusy = true →
    (segmentMicros s.encoder).all (fun len => decide (interval s.config.tw s.clk s.encoder.txSegStart ≤ len)) = true

/-- The clock and the encoder's timestamp show `TW` bits (rules R12, R22). -/
abbrev ClockInRange (s : State) : Prop := s.clk < 2 ^ s.config.tw ∧ s.encoder.txSegStart < 2 ^ s.config.tw

/-- The machine's invariant. -/
abbrev Inv (s : State) : Prop :=
  GoodConfig s.config ∧ DecoderInv s.config.tw s.decoder ∧ EncoderInv s.encoder ∧ ClockInRange s ∧ SegmentEndAhead s

/-- During a transmission started by `SEND_TELEGRAM` the decoder is disabled (rules R46, R131). -/
abbrev Guarded (s : State) : Prop :=
  s.encoder.txBusy = true → s.encoder.txRestore = true → s.enabled = false

/-- What the ports of the hardware carry (rules R12, R72, R176): transitions of the receive line, and at the operation
port every operation other than `EDGE`. Words of other formats, and `EDGE` requests with a timestamp of their own, are
for test benches (assumptions 6 to 9, 14). -/
def onPort (x : Stimulus) : Bool :=
  match x with
  | .rxEdge => true
  | .word (.op q) => q.op != 0xE#4
  | .word _ => false

/-- The streams of arrivals that hardware carries. -/
def onPorts (as : List Arrival) : Bool := as.all fun a => onPort a.what

end Sys2Proof.Safety
end

