-- ==== Sys2Proof/Certificates/Slice0/Obligations.lean ====
section
/-!
DEFINITION. What is claimed of the model. Every docstring names the rules of spec/ a statement formalises, or says
that it is the model's own choice and names the log entry. The statements hold for every configuration (rule R2) that a
state can have; where one needs a clock of 14 bits or the default layouts, it says so.
-/

namespace Sys2Proof.Claims

open Sys2Proof.Machine Sys2Proof.Safety

/-- The decoder with the window as it is after an edge whose duration is consumed (rules R102, R105); of the operand the
`TW` low bits are recorded (R73). -/
abbrev windowMoved (now : Stamp) (s : State) : Decoder :=
  { s.decoder with t0 := s.decoder.t2, t1 := s.decoder.t2, t2 := now % 2 ^ s.config.tw }

/-- The duration the next consuming edge consumes: the interval that ended at the newest recorded edge
(rules R102, R105, R118). -/
abbrev duration (s : State) : Nat := interval s.config.tw s.decoder.t2 s.decoder.t0

/-- The edge at `now` is neither ignored, skipped nor discarded (rules R101, R103, R104). -/
abbrev Consumes (now : Stamp) (s : State) : Prop :=
  s.enabled = true ∧ s.decoder.skip = false ∧
    (s.decoder.state = .syncWait ∨ s.decoder.min1Period ≤ interval s.config.tw now s.decoder.t2)

/-- The base-3 value of a symbol vector (rule R56). -/
abbrev base3 (v : BitVec 24) : Nat := ∑ i ∈ Finset.range 12, (symAt v i).toNat * 3 ^ (11 - i)

/-- No symbol of the vector is the reserved value (rule R66). -/
abbrev AllTrits (v : BitVec 24) : Prop := ∀ i, i < 12 → symAt v i ≠ 3#2

/-- Two states of the decoder after symbol `k` of a frame: the next symbol, or the terminating sync (rule R111). -/
abbrev afterSymbol (k : Fin 12) : SeqState :=
  if h : 4 * k.val + 4 < 48 then .symbol ⟨4 * k.val + 4, h⟩ else .finalSync1

/-- The state in which symbol `k` begins (rule R13). -/
abbrev symbolStart (k : Fin 12) : SeqState := .symbol ⟨4 * k.val, by omega⟩

/-- The reception row of a symbol (rule R59). -/
abbrev rxRow : Trit → Instr
  | .low => .rxTrit0
  | .high => .rxTrit1
  | .float => .rxTrit2

/-- How long from the clock until it shows `time` (rule R4). -/
abbrev untilTime (time : Stamp) (s : State) : Nat := interval s.config.tw time s.clk

/-- An arrival comes before the end of the segment in progress (rules R44, R169). -/
abbrev ArrivalFirst (a : Arrival) (s : State) : Prop :=
  ∀ t, segmentEnd s.config.tw s.encoder = some t →
    untilTime a.time s < untilTime t s ∨ (untilTime a.time s = untilTime t s ∧ a.beforeTx = true)

/-- The end of the segment in progress comes before the first arrival (rules R44, R137, R169). -/
abbrev SegmentEndFirst (t : Stamp) (s : State) : Prop :=
  segmentEnd s.config.tw s.encoder = some t ∧
    ∀ a later, s.inbox = a :: later →
      untilTime t s < untilTime a.time s ∨ (untilTime t s = untilTime a.time s ∧ a.beforeTx = false)

/-- Only edges arrive, from the receive line or as requests. -/
abbrev OnlyEdges (arrivals : List Arrival) : Prop :=
  ∀ a ∈ arrivals, a.what = .rxEdge ∨ ∃ w now, a.what = .word w ∧ decode w = .ok (.edge now)

end Sys2Proof.Claims

open Sys2Proof Sys2Proof.Machine Sys2Proof.Safety Sys2Proof.Claims

/-! ## Encoding -/

/-- Tier 3. Decode and encode agree on every well-formed instruction of every row (rules R55, R57, R59, R61, R72,
R73). -/
def Obligations.DecodeOfEncodeIsInstruction : Prop :=
  ∀ i : Instr, i.WellFormed → decode (encode i) = .ok i

/-- Tier 2. What the decoder reads is well-formed and of the word's format; where the format has no ignored bits the
word is recovered whole. -/
def Obligations.DecodedWordIsRecovered : Prop :=
  ∀ (w : Encoded) (i : Instr), decode w = .ok i →
    i.WellFormed ∧ i.format = w.format ∧ (w.format ≠ .op → w.format ≠ .tuple → encode i = w)

/-- Tier 1. Rules R72, R73: the sixteen codes with their operand fields; no request is `TX_STEP`. -/
def Obligations.OperationCodesSelectOperations : Prop :=
  (∀ a b c : Word,
    decode (request 0x0#4 a b c) = .ok .nop ∧
    decode (request 0x1#4 a b c) = .ok .enable ∧
    decode (request 0x2#4 a b c) = .ok .disable ∧
    decode (request 0x3#4 a b c) = .ok (.setMinRepeats (a.extractLsb' 0 8)) ∧
    decode (request 0x4#4 a b c) = .ok .cbDone ∧
    decode (request 0x5#4 a b c) = .ok .readState ∧
    decode (request 0x6#4 a b c) = .ok (.sendTelegram a) ∧
    decode (request 0x7#4 a b c) = .ok (.sendCode a) ∧
    decode (request 0x8#4 a b c) = .ok (.encodeTelegram (a.extractLsb' 0 24) b c) ∧
    decode (request 0x9#4 a b c) = .ok (.unpackTelegram a) ∧
    decode (request 0xA#4 a b c) = .ok (.codeToSymbols (a.extractLsb' 0 20)) ∧
    decode (request 0xB#4 a b c) = .ok (.isSameCode a b) ∧
    decode (request 0xC#4 a b c) = .ok (.getTelegram a b c) ∧
    decode (request 0xD#4 a b c) = .ok .reset ∧
    decode (request 0xE#4 a b c) = .ok (.edge a.toNat) ∧
    decode (request 0xF#4 a b c) = .ok .reservedF) ∧
  ∀ q : Request, decode (.op q) ≠ .ok .txStep

/-- Tier 1. A few words written out from the tables decode to what they stand for (95_test_vectors.md, C-GET-1,
C-GET-12, C-UNP-1; rules R59, R61). -/
def Obligations.WrittenWordsDecode : Prop :=
  decode (.op ⟨0x6#4, 0xBBA56DC2#32, 0#32, 0#32⟩) = .ok (.sendTelegram 0xBBA56DC2#32) ∧
  decode (.op ⟨0x8#4, 0x00186186#32, 200#32, 1#32⟩) = .ok (.encodeTelegram 0x186186#24 200#32 1#32) ∧
  decode (.tuple 0x00034204#32 375#32 2#32) = .ok (.getKaku true 66#8 3#16 375#32 2#32) ∧
  decode (.tuple 0x00431601#32 375#32 2#32) = .ok (.getAction false 0b10110#5 67#8 375#32 2#32) ∧
  decode (.tw32 0xBBA56DC2#32) = .ok (.telegramWord 375#9 2#3 355778#20) ∧
  decode (.air4 0b0110#4) = .ok .rxTrit2 ∧
  decode (.air4 0b1100#4) = .ok (.rxIllegal 0b1100#4) ∧
  decode (.line8 0b10001110#8) = .ok .txSym2

/-- Tier 1. The patterns of format LINE are the segments of rule R61, one character per period. -/
def Obligations.LinePatternsAreSegments : Prop :=
  (linePattern (alternate 1 true (symbolLens 0#2)) = [true, false, false, false, true, false, false, false]) ∧
  (linePattern (alternate 1 true (symbolLens 1#2)) = [true, true, true, false, true, true, true, false]) ∧
  (linePattern (alternate 1 true (symbolLens 2#2)) = [true, false, false, false, true, true, true, false]) ∧
  (linePattern (alternate 1 true syncLens) = true :: List.replicate 31 false)

/-! ## Codec -/

/-- Tier 2. Rule R80: the code of rule R56 ORed with the two unmasked operands, truncated to 32 bits; with in-range
operands the three fields stand side by side. Registers and the port `decoded` stay (rule R43). The last clause, that a
vector with the reserved symbol changes nothing, is the model's reading (assumption 10, DEDUCED): R66 and R80 (e) say
only that it is refused, R167 what the hardware then does, and entry U1 would have a model claim nothing there. -/
def Obligations.EncodeTelegramPacksFields : Prop :=
  (∀ a b c : Word, decode (request 0x8#4 a b c) = .ok (.encodeTelegram (a.extractLsb' 0 24) b c)) ∧
  ∀ (symv : BitVec 24) (p r : Word) (s : State),
    (AllTrits symv →
      ∃ w : Word, exec (.encodeTelegram symv p r) s = .next { s with result := .word w } ∧
        w = (BitVec.ofNat 32 (base3 symv) ||| p <<< 23 ||| r <<< 20) ∧
        (p.toNat ≤ 511 → r.toNat ≤ 7 → w.toNat = p.toNat * 2 ^ 23 + r.toNat * 2 ^ 20 + base3 symv)) ∧
    (¬ AllTrits symv → exec (.encodeTelegram symv p r) s = .next s)

/-- Tier 1. Rule R81: the three fields of any word. -/
def Obligations.UnpackTelegramSplitsWord : Prop :=
  (∀ a b c : Word, decode (request 0x9#4 a b c) = .ok (.unpackTelegram a)) ∧
  ∀ (w : Word) (s : State),
    exec (.unpackTelegram w) s =
      .next { s with result := .fields (BitVec.ofNat 32 (w.toNat / 2 ^ 23)) (BitVec.ofNat 32 (w.toNat / 2 ^ 20 % 8))
                                       (BitVec.ofNat 32 (w.toNat % 2 ^ 20)) }

/-- Tier 2. Rule R82: bits 31:20 of the operand are ignored; symbol `i` is `(c div 3^(11-i)) mod 3`; below `3^12` this
is the inverse of `ENCODE_TELEGRAM`; codes equal modulo `3^12` give the same symbols. -/
def Obligations.CodeToSymbolsGivesBase3Digits : Prop :=
  (∀ a b c : Word, decode (request 0xA#4 a b c) = .ok (.codeToSymbols (a.extractLsb' 0 20))) ∧
  (∀ (c : BitVec 20) (s : State), ∃ v : BitVec 24,
    exec (.codeToSymbols c) s = .next { s with result := .word (v.setWidth 32) } ∧
      (∀ i, i < 12 → (symAt v i).toNat = c.toNat / 3 ^ (11 - i) % 3) ∧
      (c.toNat < 531441 →
        exec (.encodeTelegram v 0#32 0#32) s = .next { s with result := .word (c.setWidth 32) })) ∧
  ∀ (c c' : BitVec 20) (s : State), c.toNat % 531441 = c'.toNat % 531441 →
    exec (.codeToSymbols c) s = exec (.codeToSymbols c') s

/-- Tier 2. Rule R83: the low 20 bits decide, and the comparison is symmetric and reflexive. -/
def Obligations.IsSameCodeComparesLow20Bits : Prop :=
  (∀ a b c : Word, decode (request 0xB#4 a b c) = .ok (.isSameCode a b)) ∧
  ∀ (a b : Word) (s : State),
    (exec (.isSameCode a b) s =
      .next { s with result := .word (if a.toNat % 2 ^ 20 = b.toNat % 2 ^ 20 then 1#32 else 0#32) }) ∧
    exec (.isSameCode a b) s = exec (.isSameCode b a) s ∧
    exec (.isSameCode a a) s = .next { s with result := .word 1#32 }

/-- Tier 2. Rule R91: packing then unpacking recovers the period, the repeat exponent and the code; the code gives back
the symbols; the word and its code are the same code. -/
def Obligations.CodecRoundTrip : Prop :=
  ∀ (symv : BitVec 24) (p r : Word) (s : State), AllTrits symv → p.toNat ≤ 511 → r.toNat ≤ 7 →
    ∃ w : Word,
      exec (.encodeTelegram symv p r) s = .next { s with result := .word w } ∧
      exec (.unpackTelegram w) s = .next { s with result := .fields p r (BitVec.ofNat 32 (base3 symv)) } ∧
      exec (.codeToSymbols (BitVec.ofNat 20 (base3 symv))) s = .next { s with result := .word (symv.setWidth 32) } ∧
      exec (.isSameCode w (BitVec.ofNat 32 (base3 symv))) s = .next { s with result := .word 1#32 }

/-- Tier 2. Rule R84: `GET_TELEGRAM` of a tuple is the form its tag selects. -/
def Obligations.GetTelegramIsItsForm : Prop :=
  ∀ (tuple p r : Word) (s : State), exec (.getTelegram tuple p r) s = exec (decodeTuple tuple p r) s

/-- Tier 2. Rule R90 (a), (b), (e): for all layouts and every tuple, in range or not, `GET_TELEGRAM` completes and its
word is the packing of twelve legal symbols that depend on the layouts and the tuple alone. What a layout can be is
the form of R90 (c) with the model's reading of one comparison (assumption 22, DEDUCED and DESIGN CHOICE). -/
def Obligations.GetTelegramIsPureAndWellFormed : Prop :=
  ∀ (ls : Layouts) (tuple : Word), ∃ v : BitVec 24, AllTrits v ∧
    ∀ (p r : Word) (s : State), s.config.layouts = ls →
      exec (.getTelegram tuple p r) s = .next { s with result := .word (packTelegram v p r) } ∧
      exec (.getTelegram tuple p r) s = exec (.encodeTelegram v p r) s

/-- Tier 2. Rules R2, R84, R90, R91: whatever the four layouts are, `GET_TELEGRAM` packs the twelve symbols its tag
selects among them, and with in-range operands the word gives back the operands and those symbols. What a layout can
be is the form of R90 (c) with the model's reading of one comparison (assumption 22, DEDUCED and DESIGN CHOICE). -/
def Obligations.AnyLayoutsGiveWellFormedTelegrams : Prop :=
  ∀ (tuple p r : Word) (s : State) (ts : List Trit) (w : Word),
    ts = tupleSymbols s.config.layouts tuple → w = telegramOfTrits ts p r →
    ts.length = 12 ∧ exec (.getTelegram tuple p r) s = .next { s with result := .word w } ∧
    (p.toNat ≤ 511 → r.toNat ≤ 7 → ∃ c : Word, c.toNat < 531441 ∧
      exec (.unpackTelegram w) s = .next { s with result := .fields p r c } ∧
      exec (.codeToSymbols (c.setWidth 20)) s = .next { s with result := .word ((packTrits ts).setWidth 32) } ∧
      ∀ (i : Nat) (t : Trit), ts[i]? = some t → (symAt (packTrits ts) i).toNat = t.toNat)

/-- Tier 2. The symbols of the two `KaKu` forms under the default layouts of rules R85 and R86, which the spec gives as
general knowledge (assumption 2). -/
def Obligations.KaKuSymbolsByDefaultLayout : Prop :=
  (∀ (on : Bool) (address : BitVec 8) (device : BitVec 16) (p r : Word) (s : State),
    s.config.layouts = defaultLayouts → ∃ v : BitVec 24,
    exec (.getKaku on address device p r) s = .next { s with result := .word (packTelegram v p r) } ∧
    (∀ i, i < 4 → symAt v i = if ((address.toNat + 191) % 256).testBit i then 2#2 else 0#2) ∧
    (∀ i, i < 4 → symAt v (i + 4) = if ((device.toNat + 65535) % 65536).testBit i then 2#2 else 0#2) ∧
    symAt v 8 = 0#2 ∧ symAt v 9 = 2#2 ∧ symAt v 10 = 2#2 ∧ symAt v 11 = if on then 2#2 else 0#2) ∧
  ∀ (on : Bool) (group : BitVec 4) (address : BitVec 8) (device : BitVec 16) (p r : Word) (s : State),
    s.config.layouts = defaultLayouts → ∃ v : BitVec 24,
    exec (.getKakuGroup on group address device p r) s = .next { s with result := .word (packTelegram v p r) } ∧
    (∀ i, i < 4 → symAt v i = if ((address.toNat + 191) % 256).testBit i then 2#2 else 0#2) ∧
    (∀ i, i < 2 → symAt v (i + 4) = if ((device.toNat + 65535) % 65536).testBit i then 2#2 else 0#2) ∧
    (∀ i, i < 2 → symAt v (i + 6) = if ((group.toNat + 15) % 16).testBit i then 2#2 else 0#2) ∧
    symAt v 8 = 0#2 ∧ symAt v 9 = 2#2 ∧ symAt v 10 = 2#2 ∧ symAt v 11 = if on then 2#2 else 0#2

/-- Tier 2. The symbols of `Action`, `Blokker` and `Elro` under the default layouts of rules R87 to R89, which the spec
gives as general knowledge (assumption 2). -/
def Obligations.OtherFormsSymbolsByDefaultLayout : Prop :=
  (∀ (on : Bool) (sys : BitVec 5) (device : BitVec 8) (p r : Word) (s : State),
    s.config.layouts = defaultLayouts → ∃ v : BitVec 24,
    exec (.getAction on sys device p r) s = .next { s with result := .word (packTelegram v p r) } ∧
    (∀ i, i < 5 → symAt v i = if sys.toNat.testBit i then 1#2 else 2#2) ∧
    (∀ i, i < 5 → symAt v (i + 5) = if i = (device.toNat + 191) % 256 then 0#2 else 2#2) ∧
    (symAt v 10 = if on then 2#2 else 0#2) ∧ symAt v 11 = if on then 0#2 else 2#2) ∧
  (∀ (on : Bool) (device : BitVec 16) (p r : Word) (s : State),
    s.config.layouts = defaultLayouts → ∃ v : BitVec 24,
    exec (.getBlokker on device p r) s = .next { s with result := .word (packTelegram v p r) } ∧
    (∀ i, i < 3 → symAt v (i + 1) = if ((device.toNat + 65535) % 65536).testBit i then 0#2 else 1#2) ∧
    (symAt v 8 = if on then 1#2 else 0#2) ∧ ∀ i ∈ [0, 4, 5, 6, 7, 9, 10, 11], symAt v i = 0#2) ∧
  ∀ (on : Bool) (sys : BitVec 5) (device : BitVec 8) (p r : Word) (s : State),
    s.config.layouts = defaultLayouts → ∃ v : BitVec 24,
    exec (.getElro on sys device p r) s = .next { s with result := .word (packTelegram v p r) } ∧
    (∀ i, i < 5 → symAt v i = if sys.toNat.testBit i then 0#2 else 2#2) ∧
    (∀ i, i < 5 → symAt v (i + 5) = if i = (device.toNat + 191) % 256 then 0#2 else 2#2) ∧
    (symAt v 10 = if on then 0#2 else 2#2) ∧ symAt v 11 = if on then 2#2 else 0#2

/-- Tier 2. Rule R86's remark on its default layout (assumption 2): the group form is the plain form with the device
number split in two 2-bit halves. -/
def Obligations.KaKuGroupSplitsDeviceNumber : Prop :=
  ∀ (on : Bool) (address : BitVec 8) (d g : Nat) (p r : Word) (s : State),
    s.config.layouts = defaultLayouts → d < 4 → g < 4 →
    exec (.getKakuGroup on (BitVec.ofNat 4 (g + 1)) address (BitVec.ofNat 16 (d + 1)) p r) s =
      exec (.getKaku on address (BitVec.ofNat 16 (d + 4 * g + 1)) p r) s

/-! ## Decoder -/

/-- Tier 1. Rule R101: with `enabled = 0` an edge writes nothing. -/
def Obligations.EdgeWhileDisabledChangesNothing : Prop :=
  ∀ (now : Stamp) (s : State), s.enabled = false → exec (.edge now) s = .next s

/-- Tier 1. Rules R102, R103: with a pending skip the edge is recorded, the flag cleared, nothing else. -/
def Obligations.SkippedEdgeOnlyMovesWindow : Prop :=
  ∀ (now : Stamp) (s : State), s.enabled = true → s.decoder.skip = true →
    exec (.edge now) s = .next { s with decoder := { s.decoder with
      t1 := s.decoder.t2, t2 := now % 2 ^ s.config.tw, skip := false } }

/-- Tier 1. Rule R104: mid-decode, an interval strictly shorter than `min1Period` sets `skip`, and nothing else but the
window is written. -/
def Obligations.ShortGlitchIsDiscarded : Prop :=
  ∀ (now : Stamp) (s : State), s.enabled = true → s.decoder.skip = false → s.decoder.state ≠ .syncWait →
    interval s.config.tw now s.decoder.t2 < s.decoder.min1Period →
    exec (.edge now) s = .next { s with decoder := { s.decoder with
      t1 := s.decoder.t2, t2 := now % 2 ^ s.config.tw, skip := true } }

/-- Tier 2. Rules R106, R107: in `SYNC_WAIT` a duration above 3720 gives the period and the bands, exact as integers,
clears the accumulators and goes to state 0; any other duration moves the window only. For every clock width the period
and the widest band fit `TW` bits (R16 (a), (b)). -/
def Obligations.SyncGapGivesPeriodAndBands : Prop :=
  ∀ (now : Stamp) (s : State), s.enabled = true → s.decoder.skip = false → s.decoder.state = .syncWait →
    (duration s ≤ 3720 → exec (.edge now) s = .next { s with decoder := windowMoved now s }) ∧
    (3720 < duration s → ∀ p, p = duration s / 31 →
      exec (.edge now) s = .next { s with decoder := { windowMoved now s with
        period := p, min1Period := p * 4 / 10, max1Period := p * 16 / 10
        min3Period := p * 23 / 10, max3Period := p * 37 / 10
        receivedCode := 0, previousCode := 0, repeats := 0, state := .symbol 0 } } ∧
      120 ≤ p ∧ p ≤ (2 ^ s.config.tw - 1) / 31 ∧ p * 37 / 10 < 2 ^ s.config.tw)

/-- Tier 2. Rules R108, R109, R111, R116 in sub-states 0 to 2: a short interval shifts in a 0, a long one a 1, and the
state advances; any other aborts. -/
def Obligations.IntervalIsClassified : Prop :=
  ∀ (now : Stamp) (s : State) (n : Fin 48) (h : n.val % 4 ≠ 3), s.decoder.state = .symbol n → Consumes now s →
    (duration s ≤ s.decoder.max1Period →
      exec (.edge now) s = .next { s with decoder := { windowMoved now s with
        receivedBit := s.decoder.receivedBit <<< 1, state := .symbol ⟨n.val + 1, by omega⟩ } }) ∧
    (s.decoder.max1Period < duration s → s.decoder.min3Period ≤ duration s →
      duration s ≤ s.decoder.max3Period →
      exec (.edge now) s = .next { s with decoder := { windowMoved now s with
        receivedBit := s.decoder.receivedBit <<< 1 ||| 1#4, state := .symbol ⟨n.val + 1, by omega⟩ } }) ∧
    (s.decoder.max1Period < duration s →
      (duration s < s.decoder.min3Period ∨ s.decoder.max3Period < duration s) →
      exec (.edge now) s = .next { s with decoder := { windowMoved now s with state := .syncWait } })

/-- Tier 2. Rules R108 to R111, R116 in the fourth sub-state of symbol `k`: after the shift the pattern must be one of
three, whose trit enters the accumulator; any other pattern aborts with the pattern shifted in; an interval that is
neither short nor long aborts before the shift. -/
def Obligations.FourthIntervalValidatesSymbol : Prop :=
  ∀ (now : Stamp) (s : State) (k : Fin 12) (bit : Bool),
    s.decoder.state = .symbol ⟨4 * k.val + 3, by omega⟩ → Consumes now s →
    ((s.decoder.max1Period < duration s →
      (duration s < s.decoder.min3Period ∨ s.decoder.max3Period < duration s) →
      exec (.edge now) s = .next { s with decoder := { windowMoved now s with state := .syncWait } }) ∧
    ((if bit then s.decoder.max1Period < duration s ∧ s.decoder.min3Period ≤ duration s ∧
          duration s ≤ s.decoder.max3Period
        else duration s ≤ s.decoder.max1Period) →
      ∀ pat : BitVec 4, pat = (s.decoder.receivedBit <<< 1 ||| (if bit then 1#4 else 0#4)) →
      (∀ trit : Nat, (pat = 0b0101#4 ∧ trit = 0) ∨ (pat = 0b1010#4 ∧ trit = 1) ∨ (pat = 0b0110#4 ∧ trit = 2) →
        exec (.edge now) s = .next { s with decoder := { windowMoved now s with
          receivedBit := pat, receivedCode := s.decoder.receivedCode * 3#32 + BitVec.ofNat 32 trit
          state := afterSymbol k } }) ∧
      (pat ≠ 0b0101#4 → pat ≠ 0b1010#4 → pat ≠ 0b0110#4 →
        exec (.edge now) s = .next { s with decoder := { windowMoved now s with
          receivedBit := pat, state := .syncWait } })))

/-- Tier 1. Rule R112: state 48 takes a short interval to state 49; any other aborts. -/
def Obligations.FinalSyncNeedsShortInterval : Prop :=
  ∀ (now : Stamp) (s : State), s.decoder.state = .finalSync1 → Consumes now s →
    exec (.edge now) s = .next { s with decoder := { windowMoved now s with
      state := if duration s ≤ s.decoder.max1Period then .finalSync2 else .syncWait } }

/-- Tier 1. Rules R113, R116: in state 49 a duration outside 25 to 36 periods aborts. -/
def Obligations.TerminalGapOutOfRangeAborts : Prop :=
  ∀ (now : Stamp) (s : State), s.decoder.state = .finalSync2 → Consumes now s →
    (duration s < 25 * s.decoder.period ∨ 36 * s.decoder.period < duration s) →
    exec (.edge now) s = .next { s with decoder := { windowMoved now s with state := .syncWait } }

/-- Tier 2. Rules R113 to R115, R170, R171: a gap of 25 to 36 periods makes `receivedCode` a candidate. The repeats are
counted; with the threshold met the event is emitted and the guard set, or, the guard being set, the candidate is
dropped; below the threshold the decoder goes on at state 0. That the event carries bits 31:0 of `period` when the clock
has more than 36 bits is the model's reading (assumption 20, DEDUCED); with less they are the whole of a period that
R106 estimates. -/
def Obligations.CandidateIsCountedAndDelivered : Prop :=
  ∀ (now : Stamp) (s : State) (count : BitVec 8), s.decoder.state = .finalSync2 → Consumes now s →
    25 * s.decoder.period ≤ duration s → duration s ≤ 36 * s.decoder.period →
    count = (if s.decoder.receivedCode = s.decoder.previousCode then s.decoder.repeats + 1#8 else 1#8) →
    (s.decoder.minRepeats.toNat ≤ count.toNat → s.decoder.inCallback = false →
      exec (.edge now) s = .next { s with
        decoder := { windowMoved now s with
          repeats := count, previousCode := s.decoder.receivedCode, inCallback := true, state := .syncWait }
        decoded := some ⟨s.decoder.receivedCode, BitVec.ofNat 32 s.decoder.period⟩ }) ∧
    (s.decoder.minRepeats.toNat ≤ count.toNat → s.decoder.inCallback = true →
      exec (.edge now) s = .next { s with
        decoder := { windowMoved now s with
          repeats := count, previousCode := s.decoder.receivedCode, state := .syncWait } }) ∧
    (count.toNat < s.decoder.minRepeats.toNat →
      exec (.edge now) s = .next { s with
        decoder := { windowMoved now s with
          repeats := count, previousCode := s.decoder.receivedCode, receivedCode := 0, state := .symbol 0 } })

/-- Tier 2. The frame of `EDGE` and the one place an event comes from (rules R100, R170): it always completes, writes
no register of the encoder, not `enabled`, not `minRepeats`; an event is emitted only in state 49 with the guard
clear, carries `receivedCode` and bits 31:0 of `period`, and sets the guard. That it is those bits when the clock has
more than 36 is the model's reading (assumption 20, DEDUCED). -/
def Obligations.EdgeFrameAndEventSource : Prop :=
  ∀ (now : Stamp) (s : State), s.decoded = none → ∃ (d : Decoder) (e : Option DecodedEvent),
    exec (.edge now) s = .next { s with decoder := d, decoded := e } ∧
    d.minRepeats = s.decoder.minRepeats ∧
    (e = none → d.inCallback = s.decoder.inCallback) ∧
    ∀ ev, e = some ev → s.enabled = true ∧ s.decoder.state = .finalSync2 ∧ s.decoder.inCallback = false ∧
      d.inCallback = true ∧ d.state = .syncWait ∧ ev = ⟨s.decoder.receivedCode, BitVec.ofNat 32 s.decoder.period⟩

/-- Tier 2. The state transition table of 41_decoder.md section 4: there are no other transitions. -/
def Obligations.EdgeTransitionsAreTheTable : Prop :=
  ∀ (now : Stamp) (s t : State), exec (.edge now) s = .next t →
    t.decoder.state = s.decoder.state ∨ t.decoder.state = .syncWait ∨
    (s.decoder.state = .syncWait ∧ 3720 < duration s ∧ t.decoder.state = .symbol 0) ∨
    (∃ (n : Fin 48) (h : n.val + 1 < 48), s.decoder.state = .symbol n ∧ t.decoder.state = .symbol ⟨n.val + 1, h⟩) ∨
    (s.decoder.state = .symbol 47 ∧ t.decoder.state = .finalSync1) ∨
    (s.decoder.state = .finalSync1 ∧ t.decoder.state = .finalSync2) ∨
    (s.decoder.state = .finalSync2 ∧ t.decoder.state = .symbol 0)

/-- Tier 1. Rule R120: what `EDGE` does to the decoder, and whether it emits, depends on the decoder registers, the
`enabled` flag among them, and the operand alone; the width of the clock is a parameter (R2). -/
def Obligations.EdgeDependsOnDecoderAlone : Prop :=
  ∀ (now : Stamp) (s s' : State), s.config.tw = s'.config.tw → s.decoder = s'.decoder → s.enabled = s'.enabled →
    s.decoded = none → s'.decoded = none →
    ∃ t t' : State, exec (.edge now) s = .next t ∧ exec (.edge now) s' = .next t' ∧
      t.decoder = t'.decoder ∧ t.decoded = t'.decoded

/-- Tier 2. Rule R104, effect on a glitch: right after the edge `g1` is processed, two edges `g2` (too close to `g1`)
and `e3` and then an edge `e4` end exactly as `e4` alone does with `e3` in the place of `g1`: the glitch has vanished. -/
def Obligations.GlitchVanishesFromDurations : Prop :=
  ∀ (s : State) (g2 e3 e4 : Stamp), s.enabled = true → s.decoder.skip = false → s.decoder.state ≠ .syncWait →
    interval s.config.tw g2 s.decoder.t2 < s.decoder.min1Period →
    s.decoder.min1Period ≤ interval s.config.tw e4 e3 →
    runOps [.edge g2, .edge e3, .edge e4] s =
      runOps [.edge e4] { s with decoder := { s.decoder with t2 := e3 % 2 ^ s.config.tw } } ∧
    runOps [.edge g2, .edge e3] s =
      some ({ s.quiet with decoder := { s.decoder with
        t1 := g2 % 2 ^ s.config.tw, t2 := e3 % 2 ^ s.config.tw } }, [])

/-- Tier 2. Rule R115 (a): `minRepeats` 0 and 1 behave identically, as long as the count does not wrap (rule R16 (e);
`Obligations.StepKeepsInvariant` says it never does). -/
def Obligations.MinRepeatsZeroActsAsOne : Prop :=
  ∀ (now : Stamp) (s : State), RepeatsHaveRoom s.decoder → ∃ (d : Decoder) (e : Option DecodedEvent),
    exec (.edge now) { s with decoder := { s.decoder with minRepeats := 0#8 } } =
      .next { s with decoder := { d with minRepeats := 0#8 }, decoded := e } ∧
    exec (.edge now) { s with decoder := { s.decoder with minRepeats := 1#8 } } =
      .next { s with decoder := { d with minRepeats := 1#8 }, decoded := e }

/-- Tier 1. Rule R187: after reset the clock value of the first edge, `T1 mod 2^TW`, is taken for an interval. -/
def Obligations.FirstEdgeTimeCountsAsInterval : Prop :=
  ∀ (config : Configuration) (t1 t2 : Stamp) (first : Nat), first = t1 % 2 ^ config.tw → 3720 < first →
    ∃ u, runOps [.edge t1, .edge t2] (State.resetWith config) = some (u, []) ∧ u.decoder.state = .symbol 0 ∧
      u.decoder.period = first / 31 ∧ u.decoder.t0 = first ∧ u.decoder.t1 = first ∧
      u.decoder.t2 = t2 % 2 ^ config.tw

/-- Tier 2. The reception rows at the start of a symbol (rules R59, R65, R110, R111, R116; taking a row as its four
classified intervals is assumption 7): a legal pattern appends its trit and moves to the next symbol; an illegal one
aborts. -/
def Obligations.ReceivedPatternAppendsTrit : Prop :=
  ∀ (s : State) (k : Fin 12), s.enabled = true → s.decoder.skip = false → s.decoder.state = symbolStart k →
    (exec .rxTrit0 s = .next { s with decoder := { s.decoder with
      receivedBit := 0b0101#4, receivedCode := s.decoder.receivedCode * 3#32, state := afterSymbol k } }) ∧
    (exec .rxTrit1 s = .next { s with decoder := { s.decoder with
      receivedBit := 0b1010#4, receivedCode := s.decoder.receivedCode * 3#32 + 1#32, state := afterSymbol k } }) ∧
    (exec .rxTrit2 s = .next { s with decoder := { s.decoder with
      receivedBit := 0b0110#4, receivedCode := s.decoder.receivedCode * 3#32 + 2#32, state := afterSymbol k } }) ∧
    ∀ pat : BitVec 4, pat ≠ 0b0101#4 → pat ≠ 0b1010#4 → pat ≠ 0b0110#4 →
      exec (.rxIllegal pat) s = .next { s with decoder := { s.decoder with
        receivedBit := pat, state := .syncWait } }

/-- Tier 2. `RX.SYNC`, a short interval and then the gap, in the states 0 to 49 (rules R109 to R116; in `SYNC_WAIT` see
`Obligations.ReceptionRowsNeedListeningDecoder`). In state 48 the candidate is counted and delivered, dropped, or the
next frame follows. Elsewhere the decoder ends in `SYNC_WAIT`: in state 49 by the short interval; in a state of 0 to 47
the short interval is taken as a 0, which may complete a symbol, and the gap aborts. Taking the row as its two
classified intervals is the model's choice (assumption 7, DESIGN CHOICE), and that the event carries bits 31:0 of
`period` when the clock has more than 36 is its reading (assumption 20, DEDUCED). -/
def Obligations.ReceivedSyncCompletesCandidate : Prop :=
  (∀ (s : State) (count : BitVec 8), s.enabled = true → s.decoder.skip = false → s.decoder.state = .finalSync1 →
    count = (if s.decoder.receivedCode = s.decoder.previousCode then s.decoder.repeats + 1#8 else 1#8) →
    (s.decoder.minRepeats.toNat ≤ count.toNat → s.decoder.inCallback = false →
      exec .rxSync s = .next { s with
        decoder := { s.decoder with
          repeats := count, previousCode := s.decoder.receivedCode, inCallback := true, state := .syncWait }
        decoded := some ⟨s.decoder.receivedCode, BitVec.ofNat 32 s.decoder.period⟩ }) ∧
    (s.decoder.minRepeats.toNat ≤ count.toNat → s.decoder.inCallback = true →
      exec .rxSync s = .next { s with
        decoder := { s.decoder with
          repeats := count, previousCode := s.decoder.receivedCode, state := .syncWait } }) ∧
    (count.toNat < s.decoder.minRepeats.toNat →
      exec .rxSync s = .next { s with
        decoder := { s.decoder with
          repeats := count, previousCode := s.decoder.receivedCode, receivedCode := 0, state := .symbol 0 } })) ∧
  (∀ s : State, s.enabled = true → s.decoder.skip = false → s.decoder.state = .finalSync2 →
    exec .rxSync s = .next { s with decoder := { s.decoder with state := .syncWait } }) ∧
  ∀ (s : State) (n : Fin 48) (pat : BitVec 4), s.enabled = true → s.decoder.skip = false →
    s.decoder.state = .symbol n → pat = s.decoder.receivedBit <<< 1 →
    exec .rxSync s = .next { s with decoder := { s.decoder with
      receivedBit := pat
      receivedCode :=
        if n.val % 4 = 3 ∧ pat = 0b1010#4 then s.decoder.receivedCode * 3#32 + 1#32
        else if n.val % 4 = 3 ∧ pat = 0b0110#4 then s.decoder.receivedCode * 3#32 + 2#32
        else s.decoder.receivedCode
      state := .syncWait } }

/-- Tier 1. The model's choice (assumption 7): the reception rows do nothing in `SYNC_WAIT`, where intervals have no
class (rule R13), with `enabled = 0` (R101), or before a pending skip (R103). -/
def Obligations.ReceptionRowsNeedListeningDecoder : Prop :=
  ∀ s : State, (s.enabled = false ∨ s.decoder.skip = true ∨ s.decoder.state = .syncWait) →
    exec .rxTrit0 s = .next s ∧ exec .rxTrit1 s = .next s ∧ exec .rxTrit2 s = .next s ∧
    exec .rxSync s = .next s ∧ ∀ pat : BitVec 4, exec (.rxIllegal pat) s = .next s

/-- Tier 2. Twelve received symbols give their code: the reception rows of any twelve trits take the decoder from
state 0 with an empty accumulator to state 48 with their code received (rules R56, R59, R82, R110, R111). That a row
is its four classified intervals is the model's choice (assumption 7). -/
def Obligations.TwelveReceivedSymbolsGiveCode : Prop :=
  ∀ (s : State) (ts : List Trit), ts.length = 12 → s.enabled = true → s.decoder.skip = false →
    s.decoder.state = .symbol 0 → s.decoder.receivedCode = 0#32 →
    ∃ u, runOps (ts.map rxRow) s = some (u, []) ∧ u.decoder.state = .finalSync1 ∧
      u.decoder.receivedCode.toNat = codeOfDigits (ts.map Trit.toNat) ∧
      u.decoder.receivedCode.toNat < 531441 ∧
      codeToSymv (u.decoder.receivedCode.setWidth 20) = packTrits ts ∧
      u.decoder.period = s.decoder.period ∧ u.encoder = s.encoder ∧ u.enabled = s.enabled

/-- Tier 2. Rule R62: against the bands of the period `p` itself, a segment of `p` is short and never a glitch, one of
`3p` is long, one of `31p` a terminating gap; so what is sent for a trit is classified as its received pattern. -/
def Obligations.SentSegmentsClassifyAsReceivedPatterns : Prop :=
  ∀ (d : Decoder) (p : Nat), 1 ≤ p → d.period = p → BandsFollowPeriod d →
    ¬ p < d.min1Period ∧
    (∀ n : Fin 48, d.state = .symbol n →
      (symbolLens 0#2).map (fun len => classify d (len * p)) = patternClasses 0b0101#4 ∧
      (symbolLens 1#2).map (fun len => classify d (len * p)) = patternClasses 0b1010#4 ∧
      (symbolLens 2#2).map (fun len => classify d (len * p)) = patternClasses 0b0110#4) ∧
    (d.state = .finalSync1 → classify d (1 * p) = .short) ∧
    (d.state = .finalSync2 → classify d (31 * p) = .gap)

/-- Tier 2. Rules R62, R118: a frame sent at a period of at least 121 microseconds after a gap of exactly 31 periods,
closed by the edge that ends its own gap and one more edge, is decoded: exactly one event, with the code that was sent
and the period it was sent with. Before it the decoder is enabled in `SYNC_WAIT`, no skip is pending (`skip = 0`), the
duration still pending is at most 3720, the guard is clear, and the threshold is at most 1; the clock has at least 14
bits. -/
def Obligations.TimedFrameIsDecoded : Prop :=
  ∀ (s : State) (code : BitVec 20) (p : Nat) (start last : Stamp),
    14 ≤ s.config.tw → code.toNat < 531441 → 121 ≤ p → p ≤ 511 →
    s.enabled = true → s.decoder.skip = false → s.decoder.state = .syncWait →
    s.decoder.inCallback = false → s.decoder.minRepeats.toNat ≤ 1 →
    interval s.config.tw start s.decoder.t2 = 31 * p → duration s ≤ 3720 →
    p * 4 / 10 ≤ interval s.config.tw last (start + 128 * p) →
    ∃ u, runOps (pseudoFrame s.config.tw (codeToSymv code) start p ++ [.edge (start + 128 * p), .edge last]) s =
        some (u, [⟨code.setWidth 32, BitVec.ofNat 32 p⟩]) ∧
      u.decoder.state = .syncWait ∧ u.decoder.inCallback = true ∧ u.decoder.period = p ∧
      u.decoder.receivedCode = code.setWidth 32 ∧ u.encoder = s.encoder ∧ u.enabled = true

/-! ## Encoder -/

/-- Tier 1. Rules R131, R132: an accepted `SEND_TELEGRAM` clears `enabled` and starts the transmission at the clock's
value; an accepted `SEND_CODE` starts it and leaves `enabled` alone. -/
def Obligations.SendStartsTransmission : Prop :=
  ∀ (w : Word) (s : State), s.encoder.txBusy = false → 2 ^ 23 ≤ w.toNat →
    (exec (.sendTelegram w) s = .next { s with
      enabled := false
      encoder := {
        txLevel := true, txBusy := true, txPeriod := w.extractLsb' 23 9
        txSymbols := codeToSymv (w.extractLsb' 0 20), txRepeats := BitVec.ofNat 8 (2 ^ (w.extractLsb' 20 3).toNat)
        txRep := 0, txSym := 0, txSeg := 0, txRestore := true, txSegStart := s.clk % 2 ^ s.config.tw } }) ∧
    (exec (.sendCode w) s = .next { s with
      encoder := {
        txLevel := true, txBusy := true, txPeriod := w.extractLsb' 23 9
        txSymbols := codeToSymv (w.extractLsb' 0 20), txRepeats := BitVec.ofNat 8 (2 ^ (w.extractLsb' 20 3).toNat)
        txRep := 0, txSym := 0, txSeg := 0, txRestore := false, txSegStart := s.clk % 2 ^ s.config.tw } })

/-- Tier 1. Rules R140, R167: a send while `txBusy = 1`, or with `periodMicros = 0`, changes no register and gives no
result; so does the reserved code, and `ENCODE_TELEGRAM` of a vector with the reserved symbol. That these
requests complete, with no effect, is the model's reading of R167 (assumption 10, DEDUCED). For the sends and the
reserved code R140, R76 and entries U3, U4, U9 say no effect too; for the vector R66 says only that it is refused, and
entry U1 would have a model claim nothing there. -/
def Obligations.TurnedAwayRequestsChangeNothing : Prop :=
  (∀ (w : Word) (s : State), (s.encoder.txBusy = true ∨ w.toNat < 2 ^ 23) →
    exec (.sendTelegram w) s = .next s ∧ exec (.sendCode w) s = .next s) ∧
  (∀ s : State, exec .reservedF s = .next s) ∧
  ∀ (symv : BitVec 24) (p r : Word) (s : State), ¬ AllTrits symv → exec (.encodeTelegram symv p r) s = .next s

/-- Tier 2. Rules R134, R136, R137: while a segment of the table is in progress, `TX_STEP` at its end advances the
sequencer to the next segment, the next symbol, the next frame or the finish (rule R139). That `txSegStart` holds the
clock after the finish is the model's reading (assumption 12, DEDUCED): R136 writes it first, R139 says it keeps its
value. -/
def Obligations.TxStepAdvancesSequencer : Prop :=
  ∀ (s : State) (len : Nat), s.encoder.txBusy = true → segmentMicros s.encoder = some len →
    interval s.config.tw s.clk s.encoder.txSegStart = len →
    ((s.encoder.txSym.toNat < 12 ∧ s.encoder.txSeg ≠ 3#2) ∨ (s.encoder.txSym = 12#4 ∧ s.encoder.txSeg = 0#2) →
      exec .txStep s = .next { s with encoder := { s.encoder with
        txSegStart := s.clk % 2 ^ s.config.tw, txSeg := s.encoder.txSeg + 1#2
        txLevel := decide ((s.encoder.txSeg.toNat + 1) % 2 = 0) } }) ∧
    (s.encoder.txSym.toNat < 12 → s.encoder.txSeg = 3#2 →
      exec .txStep s = .next { s with encoder := { s.encoder with
        txSegStart := s.clk % 2 ^ s.config.tw, txSym := s.encoder.txSym + 1#4, txSeg := 0#2, txLevel := true } }) ∧
    (s.encoder.txSym = 12#4 → s.encoder.txSeg = 1#2 → s.encoder.txRep.toNat + 1 < s.encoder.txRepeats.toNat →
      exec .txStep s = .next { s with encoder := { s.encoder with
        txSegStart := s.clk % 2 ^ s.config.tw, txRep := s.encoder.txRep + 1#8, txSym := 0#4, txSeg := 0#2
        txLevel := true } }) ∧
    (s.encoder.txSym = 12#4 → s.encoder.txSeg = 1#2 → s.encoder.txRepeats.toNat ≤ s.encoder.txRep.toNat + 1 →
      exec .txStep s = .next { s with
        enabled := if s.encoder.txRestore then true else s.enabled
        encoder := { s.encoder with
          txSegStart := s.clk % 2 ^ s.config.tw, txBusy := false, txLevel := false, txRep := 0#8, txSym := 0#4
          txSeg := 0#2, txRestore := false } })

/-- Tier 1. The model's choice (assumption 9): outside the instant rule R136 names, `TX_STEP` changes nothing. -/
def Obligations.TxStepOutsideItsInstantIsInert : Prop :=
  ∀ s : State, (s.encoder.txBusy = false ∨
      segmentMicros s.encoder ≠ some (interval s.config.tw s.clk s.encoder.txSegStart)) → exec .txStep s = .next s

/-- Tier 2. The transmission rows (rules R61, R133, R134, R136; assumption 8): from the first segment of a symbol the
line runs through the symbol's 8 periods, and no longer. The clock has at least 14 bits. -/
def Obligations.SentSymbolTakesEightPeriods : Prop :=
  ∀ (s : State) (i : Instr) (sym : BitVec 2),
    (i = .txSym0 ∧ sym = 0#2) ∨ (i = .txSym1 ∧ sym = 1#2) ∨ (i = .txSym2 ∧ sym = 2#2) →
    (14 ≤ s.config.tw → s.encoder.txBusy = true → s.encoder.txSym.toNat < 12 → s.encoder.txSeg = 0#2 →
      symAt s.encoder.txSymbols s.encoder.txSym.toNat = sym →
      exec i s = .next { s with
        clk := (s.encoder.txSegStart + 8 * s.encoder.txPeriod.toNat) % 2 ^ s.config.tw
        encoder := { s.encoder with
          txSegStart := (s.encoder.txSegStart + 8 * s.encoder.txPeriod.toNat) % 2 ^ s.config.tw
          txSym := s.encoder.txSym + 1#4, txSeg := 0#2, txLevel := true } }) ∧
    (s.encoder.txBusy = false ∨ 12 ≤ s.encoder.txSym.toNat ∨ s.encoder.txSeg ≠ 0#2 ∨
      symAt s.encoder.txSymbols s.encoder.txSym.toNat ≠ sym → exec i s = .next s)

/-- Tier 2. `TX.SYNC` (rules R61, R133, R134, R136, R139; assumption 8): from the first segment of the sync the line
runs through its 32 periods, then the next frame begins or the transmission is over. The clock has at least 14 bits.
That `txSegStart` holds the clock of the last `TX_STEP` at the finish is the model's reading (assumption 12, DEDUCED):
R136 writes it first, R139 says it keeps its value, and program P4 ends with it there. -/
def Obligations.SentSyncTakes32Periods : Prop :=
  ∀ s : State,
    (14 ≤ s.config.tw → s.encoder.txBusy = true → s.encoder.txSym = 12#4 → s.encoder.txSeg = 0#2 →
      (s.encoder.txRep.toNat + 1 < s.encoder.txRepeats.toNat →
        exec .txSync s = .next { s with
          clk := (s.encoder.txSegStart + 32 * s.encoder.txPeriod.toNat) % 2 ^ s.config.tw
          encoder := { s.encoder with
            txSegStart := (s.encoder.txSegStart + 32 * s.encoder.txPeriod.toNat) % 2 ^ s.config.tw
            txRep := s.encoder.txRep + 1#8, txSym := 0#4, txSeg := 0#2, txLevel := true } }) ∧
      (s.encoder.txRepeats.toNat ≤ s.encoder.txRep.toNat + 1 →
        exec .txSync s = .next { s with
          clk := (s.encoder.txSegStart + 32 * s.encoder.txPeriod.toNat) % 2 ^ s.config.tw
          enabled := if s.encoder.txRestore then true else s.enabled
          encoder := { s.encoder with
            txSegStart := (s.encoder.txSegStart + 32 * s.encoder.txPeriod.toNat) % 2 ^ s.config.tw
            txBusy := false, txLevel := false, txRep := 0#8, txSym := 0#4, txSeg := 0#2, txRestore := false } })) ∧
    (s.encoder.txBusy = false ∨ s.encoder.txSym ≠ 12#4 ∨ s.encoder.txSeg ≠ 0#2 → exec .txSync s = .next s)

/-- Tier 2. Rules R138, R142: `50 * 2^r` segments, `2^r * 128 * p` microseconds in all, for every code. -/
def Obligations.TransmissionLengthIs128PeriodsPerFrame : Prop :=
  ∀ (c : BitVec 20) (p r : Nat),
    (segments c p r).length = 50 * 2 ^ r ∧ ((segments c p r).map Prod.snd).sum = 2 ^ r * 128 * p

/-- Tier 2. Rules R131, R133, R137 to R139, R142: with nothing else arriving and a clock of at least 14 bits, an
accepted `SEND_TELEGRAM` is followed by exactly `50 * 2^r` steps. Before step `k` the line shows segment `k` of the
list, since the sum of the lengths before it, with the decoder disabled; after the last the line is LOW, the decoder
enabled and otherwise as it was. That a step runs one segment end, and the list of arrivals, are the model's own
(assumption 4, DESIGN CHOICE). -/
def Obligations.TransmissionRunsItsSegments : Prop :=
  ∀ (w : Word) (s : State) (segs : List (Bool × Nat)),
    14 ≤ s.config.tw → s.encoder.txBusy = false → 2 ^ 23 ≤ w.toNat → s.inbox = [] →
    segs = segments (w.extractLsb' 0 20) (w.extractLsb' 23 9).toNat (w.extractLsb' 20 3).toNat →
    ∃ s1, exec (.sendTelegram w) s = .next s1 ∧
      (∀ k g, segs[k]? = some g → ∃ u, runSteps k s1 = .next u ∧ u.tx = g.1 ∧ u.txBusyPort = true ∧
        u.enabled = false ∧ u.decoder = s.decoder ∧
        u.encoder.txSegStart = (s.clk + ((segs.take k).map Prod.snd).sum) % 2 ^ s.config.tw) ∧
      ∃ t, runSteps segs.length s1 = .next t ∧ t.tx = false ∧ t.txBusyPort = false ∧ t.enabled = true ∧
        t.decoder = s.decoder ∧ t.clk = (s.clk + (segs.map Prod.snd).sum) % 2 ^ s.config.tw

/-! ## Control and data -/

/-- Tier 1. Rules R72, R150 to R153: with its code and any operands, `NOP` changes nothing (R72), and each of the other
control operations writes its one register. -/
def Obligations.ControlOperationsWriteOneRegister : Prop :=
  (∀ a b c : Word, decode (request 0x0#4 a b c) = .ok .nop ∧
    decode (request 0x1#4 a b c) = .ok .enable ∧ decode (request 0x2#4 a b c) = .ok .disable ∧
    decode (request 0x3#4 a b c) = .ok (.setMinRepeats (a.extractLsb' 0 8)) ∧
    decode (request 0x4#4 a b c) = .ok .cbDone) ∧
  ∀ (s : State) (v : BitVec 8),
    exec .nop s = .next s ∧
    exec .enable s = .next { s with enabled := true } ∧
    exec .disable s = .next { s with enabled := false } ∧
    exec (.setMinRepeats v) s = .next { s with decoder := { s.decoder with minRepeats := v } } ∧
    exec .cbDone s = .next { s with decoder := { s.decoder with inCallback := false } }

/-- Tier 2. Rule R154: the record has twelve words, word 0 bit by bit, and no register changes. Period and bands
stand in bits 31:0, the window in `TW` bits. That words 2 to 6 are the low 32 bits of registers that R16 widens, when
the clock has more than 35 bits, is the model's reading (assumption 20, DEDUCED). -/
def Obligations.ReadStateReturnsRecord : Prop :=
  (∀ a b c : Word, decode (request 0x5#4 a b c) = .ok .readState) ∧
  ∀ s : State, ∃ w0 : Word,
    exec .readState s = .next (s.withResult (.record [
      w0.toNat, s.decoder.minRepeats.toNat, s.decoder.period % 2 ^ 32, s.decoder.min1Period % 2 ^ 32,
      s.decoder.max1Period % 2 ^ 32, s.decoder.min3Period % 2 ^ 32, s.decoder.max3Period % 2 ^ 32,
      s.decoder.receivedCode.toNat, s.decoder.previousCode.toNat, s.decoder.t0, s.decoder.t1, s.decoder.t2])) ∧
    (w0.extractLsb' 0 8).toInt = (match s.decoder.state with
      | .syncWait => -1
      | .symbol n => (n.val : Int)
      | .finalSync1 => 48
      | .finalSync2 => 49) ∧
    w0.getLsbD 8 = s.decoder.skip ∧ w0.getLsbD 9 = s.enabled ∧ w0.getLsbD 10 = s.decoder.inCallback ∧
    w0.getLsbD 11 = s.encoder.txBusy ∧ w0.getLsbD 12 = s.encoder.txLevel ∧ w0.extractLsb' 13 3 = 0#3 ∧
    w0.extractLsb' 16 4 = s.decoder.receivedBit ∧ w0.extractLsb' 20 4 = 0#4 ∧ w0.extractLsb' 24 8 = s.decoder.repeats

/-- Tier 1. Rules R24, R155, R185, R189: the registers after reset, and after `RESET` from any state; the clock and
what is still to arrive are no registers and stay. -/
def Obligations.ResetValuesOfRegisters : Prop :=
  (∀ a b c : Word, decode (request 0xD#4 a b c) = .ok .reset) ∧
  ∀ s : State,
    (exec .reset s = .next { s with
      decoder := {
        state := .syncWait, period := 0, min1Period := 0, max1Period := 0, min3Period := 0, max3Period := 0
        receivedBit := 0, receivedCode := 0, previousCode := 0, repeats := 0, t0 := 0, t1 := 0, t2 := 0
        skip := false, inCallback := false, minRepeats := 0 }
      encoder := {
        txLevel := false, txBusy := false, txPeriod := 0, txSymbols := 0, txRepeats := 0, txRep := 0, txSym := 0
        txSeg := 0, txRestore := false, txSegStart := 0 }
      enabled := true }) ∧
    exec .reset s = .next { s with
      decoder := State.reset.decoder, encoder := State.reset.encoder, enabled := State.reset.enabled }

/-- Tier 1. The rows that are data formats (rules R55, R57, R66; giving the datum's value on the result ports is
assumption 6): the value stands on `r`, no register changes; the reserved symbol gives no result. -/
def Obligations.DataRowsGiveTheirValue : Prop :=
  (∀ (p : BitVec 9) (r : BitVec 3) (c : BitVec 20) (s : State),
    exec (.telegramWord p r c) s = .next { s with
      result := .word (BitVec.ofNat 32 (p.toNat * 2 ^ 23 + r.toNat * 2 ^ 20 + c.toNat)) }) ∧
  (∀ s : State, exec .symLow s = .next { s with result := .word 0#32 } ∧
    exec .symHigh s = .next { s with result := .word 1#32 } ∧
    exec .symFloat s = .next { s with result := .word 2#32 } ∧ exec .symReserved s = .next s) ∧
  ∀ (v : BitVec 24) (s : State),
    (AllTrits v → exec (.symv v) s = .next { s with result := .word (v.setWidth 32) }) ∧
    (¬ AllTrits v → exec (.symv v) s = .next s)

/-! ## The machine -/

/-- Tier 1. A step runs the decoded instruction: when the first arrival comes before any segment end and is a word
that decodes to `i`, the step is `exec` of `i` with the ports silent, the clock at the arrival and the arrival gone
(rules R44, R169); so it is for a word placed by `withFetchWord`. The list of arrivals, the clock field and
`withFetchWord` are the model's own (assumption 4, DESIGN CHOICE). -/
def Obligations.StepRunsDecodedInstruction : Prop :=
  (∀ (s : State) (a : Arrival) (later : List Arrival) (w : Encoded) (i : Instr),
    s.inbox = a :: later → ArrivalFirst a s → a.what = .word w → decode w = .ok i →
    step s = exec i { s with
      result := .none, decoded := none, clk := a.time % 2 ^ s.config.tw, inbox := later }) ∧
  ∀ (s : State) (nbits w : Nat) (i : Instr), decodeTableWord nbits w = some i →
    step (s.withFetchWord nbits w) =
      exec i { s with result := .none, decoded := none, clk := s.clk % 2 ^ s.config.tw }

/-- Tier 1. Rules R12, R168, R203: a transition of the receive line, when its turn comes, is exactly one `EDGE` with
the clock sampled at that instant, on `TW` bits; when the decoder is enabled, that sample is the newest recorded edge,
so the latency is 0. The list of arrivals is the model's own (assumption 4, DESIGN CHOICE). -/
def Obligations.RxEdgeSamplesTheClock : Prop :=
  ∀ (s : State) (a : Arrival) (later : List Arrival) (sample : Nat),
    s.inbox = a :: later → ArrivalFirst a s → a.what = .rxEdge → sample = a.time % 2 ^ s.config.tw →
    step s = exec (.edge sample) { s with
      result := .none, decoded := none, clk := sample, inbox := later } ∧
    ∃ t, step s = .next t ∧ t.clk = sample ∧ t.inbox = later ∧
      t.decoder.t2 = if s.enabled then sample else s.decoder.t2

/-- Tier 2. Rules R136, R137, R169: when the segment in progress ends first, the step is `TX_STEP` at that clock
value, exactly the segment's length after its start, and it has its effect. `txSegStart` is then that clock value, at
the finish too; that it is so at the finish is the model's reading (assumption 12, DEDUCED): R136 writes it first,
R139 says it keeps its value, and program P4 ends with it there. The list of arrivals and the clock field are the
model's own (assumption 4, DESIGN CHOICE). -/
def Obligations.StepEndsSegmentsOnTime : Prop :=
  ∀ (s : State) (t : Stamp), SegmentEndFirst t s →
    ∃ u len, step s = exec .txStep { s with result := .none, decoded := none, clk := t } ∧ step s = .next u ∧
      segmentMicros s.encoder = some len ∧ interval s.config.tw t s.encoder.txSegStart = len ∧
      u.clk = t ∧ u.encoder.txSegStart = t ∧ u.inbox = s.inbox ∧ u.decoder = s.decoder

/-- Tier 1. Rules R186, R195: with no transmission in progress and nothing to arrive the machine rests; only the ports
fall silent. The list of arrivals is the model's own (assumption 4, DESIGN CHOICE). -/
def Obligations.MachineRestsWithNothingToCome : Prop :=
  ∀ s : State, s.encoder.txBusy = false → s.inbox = [] →
    step s = .next { s with result := .none, decoded := none }

/-- Tier 1. Rules R44, R169 (b): an arrival at the very instant a segment ends may be taken first or second, as the
arrival itself chooses. That the order is a flag of the arrival is the model's
choice (assumption 4, DESIGN CHOICE). -/
def Obligations.SimultaneousEventsTakeEitherOrder : Prop :=
  ∀ (s : State) (t : Stamp) (x : Stimulus) (i : Instr) (later : List Arrival),
    segmentEnd s.config.tw s.encoder = some t →
    (x = .rxEdge ∧ i = .edge t) ∨ (∃ w, x = .word w ∧ decode w = .ok i) →
    (s.inbox = ⟨t, true, x⟩ :: later →
      step s = exec i { s with result := .none, decoded := none, clk := t, inbox := later }) ∧
    (s.inbox = ⟨t, false, x⟩ :: later →
      step s = exec .txStep { s with result := .none, decoded := none, clk := t })

/-- Tier 2. No instruction ends in a fault or a refusal, and a stream that the ports can carry never stops the machine.
Rule R165 says that no operation raises anything; that no request is refused is the model's reading of R167 (assumptions
10 and 17, DEDUCED), and that the rows of data and signal formats and `TX_STEP` complete is its choice (assumptions 6 to
9). -/
def Obligations.NothingStopsTheMachine : Prop :=
  (∀ (i : Instr) (s : State), ∃ t, exec i s = .next t) ∧
  ∀ s : State, onPorts s.inbox = true → ∃ t, step s = .next t ∧ onPorts t.inbox = true

/-- Tier 2. Rule R1: decoder and encoder share `enabled` and nothing else; the codec has no state (rule R23). No
instruction writes the parameters (R2) or what is still to arrive. -/
def Obligations.UnitsShareOnlyEnabled : Prop :=
  ∀ (i : Instr) (s t : State), exec i s = .next t →
    t.config = s.config ∧ t.inbox = s.inbox ∧
    (t.encoder = s.encoder ∨ t.decoder = s.decoder ∨ i = .reset) ∧
    (t.encoder ≠ s.encoder → i = .reset ∨ i = .txStep ∨ i = .txSym0 ∨ i = .txSym1 ∨ i = .txSym2 ∨ i = .txSync ∨
      (∃ w, i = .sendTelegram w) ∨ ∃ w, i = .sendCode w) ∧
    (t.decoder ≠ s.decoder → i = .reset ∨ (∃ now, i = .edge now) ∨ (∃ v, i = .setMinRepeats v) ∨ i = .cbDone ∨
      i.format = .air4 ∨ i.format = .airsync) ∧
    (t.result ≠ s.result → t.decoder = s.decoder ∧ t.encoder = s.encoder ∧ t.enabled = s.enabled)

/-- Tier 1. The invariant holds at reset, for every configuration with a clock of at least 14 bits. -/
def Obligations.ResetMeetsInvariant : Prop :=
  Inv State.reset ∧ ∀ config : Configuration, 14 ≤ config.tw → Inv (State.resetWith config)

/-- Tier 3. Every step keeps the invariant (rules R16, R17, R25, R103, R135, R137), for every clock width of at least
14 bits and all layouts: the bands follow the period, period and timestamps fit `TW` bits, the codes are codes, the
repeat count cannot wrap, a pending skip is mid-decode, the transmit sequencer stays in its table, the line idles LOW,
and no segment end is missed. That the bound on the repeat count is 254 in the middle of a frame, not R16 (e)'s, is
the model's reading (assumption 18, DEDUCED), and so are the 14 bits (assumption 21, DEDUCED). -/
def Obligations.StepKeepsInvariant : Prop :=
  ∀ s t : State, Inv s → step s = .next t → Inv t

/-- Tier 2. Rules R46, R131, R141, R198: no instruction but `ENABLE` lifts the self-reception guard while the
transmission lasts. -/
def Obligations.OnlyEnableLiftsTheGuard : Prop :=
  ∀ (i : Instr) (s t : State), i ≠ .enable → Guarded s → exec i s = .next t → Guarded t

/-- Tier 2. Rules R46, R131: over any number of steps in which only edges arrive, as long as a transmission started by
`SEND_TELEGRAM` lasts no register of the decoder changes and no event is emitted. The steps and the list of arrivals
are the model's own (assumption 4, DESIGN CHOICE). -/
def Obligations.NoSelfReceptionDuringSendTelegram : Prop :=
  ∀ (k : Nat) (s t : State), OnlyEdges s.inbox →
    s.encoder.txBusy = true → s.encoder.txRestore = true → s.enabled = false → s.decoded = none →
    runSteps k s = .next t → t.encoder.txBusy = true →
    t.decoder = s.decoder ∧ t.decoded = none ∧ t.enabled = false
end

