-- ==== Sys2Proof/Laws/State.lean ====
section
/-!
SUPPORT. One lemma per field for each named update of the state, so that no later proof unfolds a record update.
-/

namespace Sys2Proof.Machine

@[simp] theorem shiftWindow_state (now : Stamp) (d : Decoder) :
    (shiftWindow now d).state = d.state := rfl

@[simp] theorem shiftWindow_period (now : Stamp) (d : Decoder) :
    (shiftWindow now d).period = d.period := rfl

@[simp] theorem shiftWindow_min1Period (now : Stamp) (d : Decoder) :
    (shiftWindow now d).min1Period = d.min1Period := rfl

@[simp] theorem shiftWindow_max1Period (now : Stamp) (d : Decoder) :
    (shiftWindow now d).max1Period = d.max1Period := rfl

@[simp] theorem shiftWindow_min3Period (now : Stamp) (d : Decoder) :
    (shiftWindow now d).min3Period = d.min3Period := rfl

@[simp] theorem shiftWindow_max3Period (now : Stamp) (d : Decoder) :
    (shiftWindow now d).max3Period = d.max3Period := rfl

@[simp] theorem shiftWindow_receivedBit (now : Stamp) (d : Decoder) :
    (shiftWindow now d).receivedBit = d.receivedBit := rfl

@[simp] theorem shiftWindow_receivedCode (now : Stamp) (d : Decoder) :
    (shiftWindow now d).receivedCode = d.receivedCode := rfl

@[simp] theorem shiftWindow_previousCode (now : Stamp) (d : Decoder) :
    (shiftWindow now d).previousCode = d.previousCode := rfl

@[simp] theorem shiftWindow_repeats (now : Stamp) (d : Decoder) :
    (shiftWindow now d).repeats = d.repeats := rfl

@[simp] theorem shiftWindow_t0 (now : Stamp) (d : Decoder) :
    (shiftWindow now d).t0 = d.t0 := rfl

@[simp] theorem shiftWindow_t1 (now : Stamp) (d : Decoder) :
    (shiftWindow now d).t1 = d.t2 := rfl

@[simp] theorem shiftWindow_t2 (now : Stamp) (d : Decoder) :
    (shiftWindow now d).t2 = now := rfl

@[simp] theorem shiftWindow_skip (now : Stamp) (d : Decoder) :
    (shiftWindow now d).skip = d.skip := rfl

@[simp] theorem shiftWindow_inCallback (now : Stamp) (d : Decoder) :
    (shiftWindow now d).inCallback = d.inCallback := rfl

@[simp] theorem shiftWindow_minRepeats (now : Stamp) (d : Decoder) :
    (shiftWindow now d).minRepeats = d.minRepeats := rfl

@[simp] theorem takeInterval_state (d : Decoder) :
    (takeInterval d).state = d.state := rfl

@[simp] theorem takeInterval_period (d : Decoder) :
    (takeInterval d).period = d.period := rfl

@[simp] theorem takeInterval_min1Period (d : Decoder) :
    (takeInterval d).min1Period = d.min1Period := rfl

@[simp] theorem takeInterval_max1Period (d : Decoder) :
    (takeInterval d).max1Period = d.max1Period := rfl

@[simp] theorem takeInterval_min3Period (d : Decoder) :
    (takeInterval d).min3Period = d.min3Period := rfl

@[simp] theorem takeInterval_max3Period (d : Decoder) :
    (takeInterval d).max3Period = d.max3Period := rfl

@[simp] theorem takeInterval_receivedBit (d : Decoder) :
    (takeInterval d).receivedBit = d.receivedBit := rfl

@[simp] theorem takeInterval_receivedCode (d : Decoder) :
    (takeInterval d).receivedCode = d.receivedCode := rfl

@[simp] theorem takeInterval_previousCode (d : Decoder) :
    (takeInterval d).previousCode = d.previousCode := rfl

@[simp] theorem takeInterval_repeats (d : Decoder) :
    (takeInterval d).repeats = d.repeats := rfl

@[simp] theorem takeInterval_t0 (d : Decoder) :
    (takeInterval d).t0 = d.t1 := rfl

@[simp] theorem takeInterval_t1 (d : Decoder) :
    (takeInterval d).t1 = d.t1 := rfl

@[simp] theorem takeInterval_t2 (d : Decoder) :
    (takeInterval d).t2 = d.t2 := rfl

@[simp] theorem takeInterval_skip (d : Decoder) :
    (takeInterval d).skip = d.skip := rfl

@[simp] theorem takeInterval_inCallback (d : Decoder) :
    (takeInterval d).inCallback = d.inCallback := rfl

@[simp] theorem takeInterval_minRepeats (d : Decoder) :
    (takeInterval d).minRepeats = d.minRepeats := rfl

@[simp] theorem abort_state (d : Decoder) :
    (abort d).state = .syncWait := rfl

@[simp] theorem abort_period (d : Decoder) :
    (abort d).period = d.period := rfl

@[simp] theorem abort_min1Period (d : Decoder) :
    (abort d).min1Period = d.min1Period := rfl

@[simp] theorem abort_max1Period (d : Decoder) :
    (abort d).max1Period = d.max1Period := rfl

@[simp] theorem abort_min3Period (d : Decoder) :
    (abort d).min3Period = d.min3Period := rfl

@[simp] theorem abort_max3Period (d : Decoder) :
    (abort d).max3Period = d.max3Period := rfl

@[simp] theorem abort_receivedBit (d : Decoder) :
    (abort d).receivedBit = d.receivedBit := rfl

@[simp] theorem abort_receivedCode (d : Decoder) :
    (abort d).receivedCode = d.receivedCode := rfl

@[simp] theorem abort_previousCode (d : Decoder) :
    (abort d).previousCode = d.previousCode := rfl

@[simp] theorem abort_repeats (d : Decoder) :
    (abort d).repeats = d.repeats := rfl

@[simp] theorem abort_t0 (d : Decoder) :
    (abort d).t0 = d.t0 := rfl

@[simp] theorem abort_t1 (d : Decoder) :
    (abort d).t1 = d.t1 := rfl

@[simp] theorem abort_t2 (d : Decoder) :
    (abort d).t2 = d.t2 := rfl

@[simp] theorem abort_skip (d : Decoder) :
    (abort d).skip = d.skip := rfl

@[simp] theorem abort_inCallback (d : Decoder) :
    (abort d).inCallback = d.inCallback := rfl

@[simp] theorem abort_minRepeats (d : Decoder) :
    (abort d).minRepeats = d.minRepeats := rfl

@[simp] theorem shiftBit_state (bit : Bool) (d : Decoder) :
    (shiftBit bit d).state = d.state := rfl

@[simp] theorem shiftBit_period (bit : Bool) (d : Decoder) :
    (shiftBit bit d).period = d.period := rfl

@[simp] theorem shiftBit_min1Period (bit : Bool) (d : Decoder) :
    (shiftBit bit d).min1Period = d.min1Period := rfl

@[simp] theorem shiftBit_max1Period (bit : Bool) (d : Decoder) :
    (shiftBit bit d).max1Period = d.max1Period := rfl

@[simp] theorem shiftBit_min3Period (bit : Bool) (d : Decoder) :
    (shiftBit bit d).min3Period = d.min3Period := rfl

@[simp] theorem shiftBit_max3Period (bit : Bool) (d : Decoder) :
    (shiftBit bit d).max3Period = d.max3Period := rfl

@[simp] theorem shiftBit_receivedBit (bit : Bool) (d : Decoder) :
    (shiftBit bit d).receivedBit = (d.receivedBit <<< 1) ||| (if bit then 1#4 else 0#4) := rfl

@[simp] theorem shiftBit_receivedCode (bit : Bool) (d : Decoder) :
    (shiftBit bit d).receivedCode = d.receivedCode := rfl

@[simp] theorem shiftBit_previousCode (bit : Bool) (d : Decoder) :
    (shiftBit bit d).previousCode = d.previousCode := rfl

@[simp] theorem shiftBit_repeats (bit : Bool) (d : Decoder) :
    (shiftBit bit d).repeats = d.repeats := rfl

@[simp] theorem shiftBit_t0 (bit : Bool) (d : Decoder) :
    (shiftBit bit d).t0 = d.t0 := rfl

@[simp] theorem shiftBit_t1 (bit : Bool) (d : Decoder) :
    (shiftBit bit d).t1 = d.t1 := rfl

@[simp] theorem shiftBit_t2 (bit : Bool) (d : Decoder) :
    (shiftBit bit d).t2 = d.t2 := rfl

@[simp] theorem shiftBit_skip (bit : Bool) (d : Decoder) :
    (shiftBit bit d).skip = d.skip := rfl

@[simp] theorem shiftBit_inCallback (bit : Bool) (d : Decoder) :
    (shiftBit bit d).inCallback = d.inCallback := rfl

@[simp] theorem shiftBit_minRepeats (bit : Bool) (d : Decoder) :
    (shiftBit bit d).minRepeats = d.minRepeats := rfl

@[simp] theorem accumulate_state (t : Trit) (d : Decoder) :
    (accumulate t d).state = d.state := rfl

@[simp] theorem accumulate_period (t : Trit) (d : Decoder) :
    (accumulate t d).period = d.period := rfl

@[simp] theorem accumulate_min1Period (t : Trit) (d : Decoder) :
    (accumulate t d).min1Period = d.min1Period := rfl

@[simp] theorem accumulate_max1Period (t : Trit) (d : Decoder) :
    (accumulate t d).max1Period = d.max1Period := rfl

@[simp] theorem accumulate_min3Period (t : Trit) (d : Decoder) :
    (accumulate t d).min3Period = d.min3Period := rfl

@[simp] theorem accumulate_max3Period (t : Trit) (d : Decoder) :
    (accumulate t d).max3Period = d.max3Period := rfl

@[simp] theorem accumulate_receivedBit (t : Trit) (d : Decoder) :
    (accumulate t d).receivedBit = d.receivedBit := rfl

@[simp] theorem accumulate_receivedCode (t : Trit) (d : Decoder) :
    (accumulate t d).receivedCode = d.receivedCode * 3#32 + BitVec.ofNat 32 t.toNat := rfl

@[simp] theorem accumulate_previousCode (t : Trit) (d : Decoder) :
    (accumulate t d).previousCode = d.previousCode := rfl

@[simp] theorem accumulate_repeats (t : Trit) (d : Decoder) :
    (accumulate t d).repeats = d.repeats := rfl

@[simp] theorem accumulate_t0 (t : Trit) (d : Decoder) :
    (accumulate t d).t0 = d.t0 := rfl

@[simp] theorem accumulate_t1 (t : Trit) (d : Decoder) :
    (accumulate t d).t1 = d.t1 := rfl

@[simp] theorem accumulate_t2 (t : Trit) (d : Decoder) :
    (accumulate t d).t2 = d.t2 := rfl

@[simp] theorem accumulate_skip (t : Trit) (d : Decoder) :
    (accumulate t d).skip = d.skip := rfl

@[simp] theorem accumulate_inCallback (t : Trit) (d : Decoder) :
    (accumulate t d).inCallback = d.inCallback := rfl

@[simp] theorem accumulate_minRepeats (t : Trit) (d : Decoder) :
    (accumulate t d).minRepeats = d.minRepeats := rfl

@[simp] theorem advance_state (n : Fin 48) (d : Decoder) :
    (advance n d).state = nextSymbolState n := rfl

@[simp] theorem advance_period (n : Fin 48) (d : Decoder) :
    (advance n d).period = d.period := rfl

@[simp] theorem advance_min1Period (n : Fin 48) (d : Decoder) :
    (advance n d).min1Period = d.min1Period := rfl

@[simp] theorem advance_max1Period (n : Fin 48) (d : Decoder) :
    (advance n d).max1Period = d.max1Period := rfl

@[simp] theorem advance_min3Period (n : Fin 48) (d : Decoder) :
    (advance n d).min3Period = d.min3Period := rfl

@[simp] theorem advance_max3Period (n : Fin 48) (d : Decoder) :
    (advance n d).max3Period = d.max3Period := rfl

@[simp] theorem advance_receivedBit (n : Fin 48) (d : Decoder) :
    (advance n d).receivedBit = d.receivedBit := rfl

@[simp] theorem advance_receivedCode (n : Fin 48) (d : Decoder) :
    (advance n d).receivedCode = d.receivedCode := rfl

@[simp] theorem advance_previousCode (n : Fin 48) (d : Decoder) :
    (advance n d).previousCode = d.previousCode := rfl

@[simp] theorem advance_repeats (n : Fin 48) (d : Decoder) :
    (advance n d).repeats = d.repeats := rfl

@[simp] theorem advance_t0 (n : Fin 48) (d : Decoder) :
    (advance n d).t0 = d.t0 := rfl

@[simp] theorem advance_t1 (n : Fin 48) (d : Decoder) :
    (advance n d).t1 = d.t1 := rfl

@[simp] theorem advance_t2 (n : Fin 48) (d : Decoder) :
    (advance n d).t2 = d.t2 := rfl

@[simp] theorem advance_skip (n : Fin 48) (d : Decoder) :
    (advance n d).skip = d.skip := rfl

@[simp] theorem advance_inCallback (n : Fin 48) (d : Decoder) :
    (advance n d).inCallback = d.inCallback := rfl

@[simp] theorem advance_minRepeats (n : Fin 48) (d : Decoder) :
    (advance n d).minRepeats = d.minRepeats := rfl

@[simp] theorem callbackReturn_state (d : Decoder) :
    (callbackReturn d).state = d.state := rfl

@[simp] theorem callbackReturn_period (d : Decoder) :
    (callbackReturn d).period = d.period := rfl

@[simp] theorem callbackReturn_min1Period (d : Decoder) :
    (callbackReturn d).min1Period = d.min1Period := rfl

@[simp] theorem callbackReturn_max1Period (d : Decoder) :
    (callbackReturn d).max1Period = d.max1Period := rfl

@[simp] theorem callbackReturn_min3Period (d : Decoder) :
    (callbackReturn d).min3Period = d.min3Period := rfl

@[simp] theorem callbackReturn_max3Period (d : Decoder) :
    (callbackReturn d).max3Period = d.max3Period := rfl

@[simp] theorem callbackReturn_receivedBit (d : Decoder) :
    (callbackReturn d).receivedBit = d.receivedBit := rfl

@[simp] theorem callbackReturn_receivedCode (d : Decoder) :
    (callbackReturn d).receivedCode = d.receivedCode := rfl

@[simp] theorem callbackReturn_previousCode (d : Decoder) :
    (callbackReturn d).previousCode = d.previousCode := rfl

@[simp] theorem callbackReturn_repeats (d : Decoder) :
    (callbackReturn d).repeats = d.repeats := rfl

@[simp] theorem callbackReturn_t0 (d : Decoder) :
    (callbackReturn d).t0 = d.t0 := rfl

@[simp] theorem callbackReturn_t1 (d : Decoder) :
    (callbackReturn d).t1 = d.t1 := rfl

@[simp] theorem callbackReturn_t2 (d : Decoder) :
    (callbackReturn d).t2 = d.t2 := rfl

@[simp] theorem callbackReturn_skip (d : Decoder) :
    (callbackReturn d).skip = d.skip := rfl

@[simp] theorem callbackReturn_inCallback (d : Decoder) :
    (callbackReturn d).inCallback = false := rfl

@[simp] theorem callbackReturn_minRepeats (d : Decoder) :
    (callbackReturn d).minRepeats = d.minRepeats := rfl

@[simp] theorem continueFrame_state (d : Decoder) :
    (continueFrame d).state = .symbol 0 := rfl

@[simp] theorem continueFrame_period (d : Decoder) :
    (continueFrame d).period = d.period := rfl

@[simp] theorem continueFrame_min1Period (d : Decoder) :
    (continueFrame d).min1Period = d.min1Period := rfl

@[simp] theorem continueFrame_max1Period (d : Decoder) :
    (continueFrame d).max1Period = d.max1Period := rfl

@[simp] theorem continueFrame_min3Period (d : Decoder) :
    (continueFrame d).min3Period = d.min3Period := rfl

@[simp] theorem continueFrame_max3Period (d : Decoder) :
    (continueFrame d).max3Period = d.max3Period := rfl

@[simp] theorem continueFrame_receivedBit (d : Decoder) :
    (continueFrame d).receivedBit = d.receivedBit := rfl

@[simp] theorem continueFrame_receivedCode (d : Decoder) :
    (continueFrame d).receivedCode = 0 := rfl

@[simp] theorem continueFrame_previousCode (d : Decoder) :
    (continueFrame d).previousCode = d.previousCode := rfl

@[simp] theorem continueFrame_repeats (d : Decoder) :
    (continueFrame d).repeats = d.repeats := rfl

@[simp] theorem continueFrame_t0 (d : Decoder) :
    (continueFrame d).t0 = d.t0 := rfl

@[simp] theorem continueFrame_t1 (d : Decoder) :
    (continueFrame d).t1 = d.t1 := rfl

@[simp] theorem continueFrame_t2 (d : Decoder) :
    (continueFrame d).t2 = d.t2 := rfl

@[simp] theorem continueFrame_skip (d : Decoder) :
    (continueFrame d).skip = d.skip := rfl

@[simp] theorem continueFrame_inCallback (d : Decoder) :
    (continueFrame d).inCallback = d.inCallback := rfl

@[simp] theorem continueFrame_minRepeats (d : Decoder) :
    (continueFrame d).minRepeats = d.minRepeats := rfl

@[simp] theorem detectSync_state (k : Nat) (d : Decoder) :
    (detectSync k d).state = .symbol 0 := rfl

@[simp] theorem detectSync_period (k : Nat) (d : Decoder) :
    (detectSync k d).period = k / 31 := rfl

@[simp] theorem detectSync_min1Period (k : Nat) (d : Decoder) :
    (detectSync k d).min1Period = band (k / 31) 4 := rfl

@[simp] theorem detectSync_max1Period (k : Nat) (d : Decoder) :
    (detectSync k d).max1Period = band (k / 31) 16 := rfl

@[simp] theorem detectSync_min3Period (k : Nat) (d : Decoder) :
    (detectSync k d).min3Period = band (k / 31) 23 := rfl

@[simp] theorem detectSync_max3Period (k : Nat) (d : Decoder) :
    (detectSync k d).max3Period = band (k / 31) 37 := rfl

@[simp] theorem detectSync_receivedBit (k : Nat) (d : Decoder) :
    (detectSync k d).receivedBit = d.receivedBit := rfl

@[simp] theorem detectSync_receivedCode (k : Nat) (d : Decoder) :
    (detectSync k d).receivedCode = 0 := rfl

@[simp] theorem detectSync_previousCode (k : Nat) (d : Decoder) :
    (detectSync k d).previousCode = 0 := rfl

@[simp] theorem detectSync_repeats (k : Nat) (d : Decoder) :
    (detectSync k d).repeats = 0 := rfl

@[simp] theorem detectSync_t0 (k : Nat) (d : Decoder) :
    (detectSync k d).t0 = d.t0 := rfl

@[simp] theorem detectSync_t1 (k : Nat) (d : Decoder) :
    (detectSync k d).t1 = d.t1 := rfl

@[simp] theorem detectSync_t2 (k : Nat) (d : Decoder) :
    (detectSync k d).t2 = d.t2 := rfl

@[simp] theorem detectSync_skip (k : Nat) (d : Decoder) :
    (detectSync k d).skip = d.skip := rfl

@[simp] theorem detectSync_inCallback (k : Nat) (d : Decoder) :
    (detectSync k d).inCallback = d.inCallback := rfl

@[simp] theorem detectSync_minRepeats (k : Nat) (d : Decoder) :
    (detectSync k d).minRepeats = d.minRepeats := rfl

@[simp] theorem finishTransmission_txLevel (e : Encoder) :
    (finishTransmission e).txLevel = false := rfl

@[simp] theorem finishTransmission_txBusy (e : Encoder) :
    (finishTransmission e).txBusy = false := rfl

@[simp] theorem finishTransmission_txPeriod (e : Encoder) :
    (finishTransmission e).txPeriod = e.txPeriod := rfl

@[simp] theorem finishTransmission_txSymbols (e : Encoder) :
    (finishTransmission e).txSymbols = e.txSymbols := rfl

@[simp] theorem finishTransmission_txRepeats (e : Encoder) :
    (finishTransmission e).txRepeats = e.txRepeats := rfl

@[simp] theorem finishTransmission_txRep (e : Encoder) :
    (finishTransmission e).txRep = 0 := rfl

@[simp] theorem finishTransmission_txSym (e : Encoder) :
    (finishTransmission e).txSym = 0 := rfl

@[simp] theorem finishTransmission_txSeg (e : Encoder) :
    (finishTransmission e).txSeg = 0 := rfl

@[simp] theorem finishTransmission_txRestore (e : Encoder) :
    (finishTransmission e).txRestore = false := rfl

@[simp] theorem finishTransmission_txSegStart (e : Encoder) :
    (finishTransmission e).txSegStart = e.txSegStart := rfl

@[simp] theorem nextSegment_txLevel (e : Encoder) :
    (nextSegment e).txLevel = segLevel (e.txSeg + 1#2) := rfl

@[simp] theorem nextSegment_txBusy (e : Encoder) :
    (nextSegment e).txBusy = e.txBusy := rfl

@[simp] theorem nextSegment_txPeriod (e : Encoder) :
    (nextSegment e).txPeriod = e.txPeriod := rfl

@[simp] theorem nextSegment_txSymbols (e : Encoder) :
    (nextSegment e).txSymbols = e.txSymbols := rfl

@[simp] theorem nextSegment_txRepeats (e : Encoder) :
    (nextSegment e).txRepeats = e.txRepeats := rfl

@[simp] theorem nextSegment_txRep (e : Encoder) :
    (nextSegment e).txRep = e.txRep := rfl

@[simp] theorem nextSegment_txSym (e : Encoder) :
    (nextSegment e).txSym = e.txSym := rfl

@[simp] theorem nextSegment_txSeg (e : Encoder) :
    (nextSegment e).txSeg = e.txSeg + 1#2 := rfl

@[simp] theorem nextSegment_txRestore (e : Encoder) :
    (nextSegment e).txRestore = e.txRestore := rfl

@[simp] theorem nextSegment_txSegStart (e : Encoder) :
    (nextSegment e).txSegStart = e.txSegStart := rfl

@[simp] theorem nextSymbol_txLevel (e : Encoder) :
    (nextSymbol e).txLevel = segLevel 0 := rfl

@[simp] theorem nextSymbol_txBusy (e : Encoder) :
    (nextSymbol e).txBusy = e.txBusy := rfl

@[simp] theorem nextSymbol_txPeriod (e : Encoder) :
    (nextSymbol e).txPeriod = e.txPeriod := rfl

@[simp] theorem nextSymbol_txSymbols (e : Encoder) :
    (nextSymbol e).txSymbols = e.txSymbols := rfl

@[simp] theorem nextSymbol_txRepeats (e : Encoder) :
    (nextSymbol e).txRepeats = e.txRepeats := rfl

@[simp] theorem nextSymbol_txRep (e : Encoder) :
    (nextSymbol e).txRep = e.txRep := rfl

@[simp] theorem nextSymbol_txSym (e : Encoder) :
    (nextSymbol e).txSym = e.txSym + 1#4 := rfl

@[simp] theorem nextSymbol_txSeg (e : Encoder) :
    (nextSymbol e).txSeg = 0 := rfl

@[simp] theorem nextSymbol_txRestore (e : Encoder) :
    (nextSymbol e).txRestore = e.txRestore := rfl

@[simp] theorem nextSymbol_txSegStart (e : Encoder) :
    (nextSymbol e).txSegStart = e.txSegStart := rfl

@[simp] theorem nextFrame_txLevel (e : Encoder) :
    (nextFrame e).txLevel = segLevel 0 := rfl

@[simp] theorem nextFrame_txBusy (e : Encoder) :
    (nextFrame e).txBusy = e.txBusy := rfl

@[simp] theorem nextFrame_txPeriod (e : Encoder) :
    (nextFrame e).txPeriod = e.txPeriod := rfl

@[simp] theorem nextFrame_txSymbols (e : Encoder) :
    (nextFrame e).txSymbols = e.txSymbols := rfl

@[simp] theorem nextFrame_txRepeats (e : Encoder) :
    (nextFrame e).txRepeats = e.txRepeats := rfl

@[simp] theorem nextFrame_txRep (e : Encoder) :
    (nextFrame e).txRep = e.txRep + 1#8 := rfl

@[simp] theorem nextFrame_txSym (e : Encoder) :
    (nextFrame e).txSym = 0 := rfl

@[simp] theorem nextFrame_txSeg (e : Encoder) :
    (nextFrame e).txSeg = 0 := rfl

@[simp] theorem nextFrame_txRestore (e : Encoder) :
    (nextFrame e).txRestore = e.txRestore := rfl

@[simp] theorem nextFrame_txSegStart (e : Encoder) :
    (nextFrame e).txSegStart = e.txSegStart := rfl

@[simp] theorem withDecoder_config (r : Decoder × Option DecodedEvent) (s : State) :
    (s.withDecoder r).config = s.config := rfl

@[simp] theorem withDecoder_decoder (r : Decoder × Option DecodedEvent) (s : State) :
    (s.withDecoder r).decoder = r.1 := rfl

@[simp] theorem withDecoder_encoder (r : Decoder × Option DecodedEvent) (s : State) :
    (s.withDecoder r).encoder = s.encoder := rfl

@[simp] theorem withDecoder_enabled (r : Decoder × Option DecodedEvent) (s : State) :
    (s.withDecoder r).enabled = s.enabled := rfl

@[simp] theorem withDecoder_clk (r : Decoder × Option DecodedEvent) (s : State) :
    (s.withDecoder r).clk = s.clk := rfl

@[simp] theorem withDecoder_inbox (r : Decoder × Option DecodedEvent) (s : State) :
    (s.withDecoder r).inbox = s.inbox := rfl

@[simp] theorem withDecoder_result (r : Decoder × Option DecodedEvent) (s : State) :
    (s.withDecoder r).result = s.result := rfl

@[simp] theorem withDecoder_decoded (r : Decoder × Option DecodedEvent) (s : State) :
    (s.withDecoder r).decoded = r.2.or s.decoded := rfl

@[simp] theorem withResult_config (r : Result) (s : State) :
    (s.withResult r).config = s.config := rfl

@[simp] theorem withResult_decoder (r : Result) (s : State) :
    (s.withResult r).decoder = s.decoder := rfl

@[simp] theorem withResult_encoder (r : Result) (s : State) :
    (s.withResult r).encoder = s.encoder := rfl

@[simp] theorem withResult_enabled (r : Result) (s : State) :
    (s.withResult r).enabled = s.enabled := rfl

@[simp] theorem withResult_clk (r : Result) (s : State) :
    (s.withResult r).clk = s.clk := rfl

@[simp] theorem withResult_inbox (r : Result) (s : State) :
    (s.withResult r).inbox = s.inbox := rfl

@[simp] theorem withResult_result (r : Result) (s : State) :
    (s.withResult r).result = r := rfl

@[simp] theorem withResult_decoded (r : Result) (s : State) :
    (s.withResult r).decoded = s.decoded := rfl

@[simp] theorem quiet_config (s : State) :
    (s.quiet).config = s.config := rfl

@[simp] theorem quiet_decoder (s : State) :
    (s.quiet).decoder = s.decoder := rfl

@[simp] theorem quiet_encoder (s : State) :
    (s.quiet).encoder = s.encoder := rfl

@[simp] theorem quiet_enabled (s : State) :
    (s.quiet).enabled = s.enabled := rfl

@[simp] theorem quiet_clk (s : State) :
    (s.quiet).clk = s.clk := rfl

@[simp] theorem quiet_inbox (s : State) :
    (s.quiet).inbox = s.inbox := rfl

@[simp] theorem quiet_result (s : State) :
    (s.quiet).result = .none := rfl

@[simp] theorem quiet_decoded (s : State) :
    (s.quiet).decoded = none := rfl

@[simp] theorem resetRegisters_config (s : State) :
    (s.resetRegisters).config = s.config := rfl

@[simp] theorem resetRegisters_decoder (s : State) :
    (s.resetRegisters).decoder = Decoder.reset := rfl

@[simp] theorem resetRegisters_encoder (s : State) :
    (s.resetRegisters).encoder = Encoder.reset := rfl

@[simp] theorem resetRegisters_enabled (s : State) :
    (s.resetRegisters).enabled = true := rfl

@[simp] theorem resetRegisters_clk (s : State) :
    (s.resetRegisters).clk = s.clk := rfl

@[simp] theorem resetRegisters_inbox (s : State) :
    (s.resetRegisters).inbox = s.inbox := rfl

@[simp] theorem resetRegisters_result (s : State) :
    (s.resetRegisters).result = s.result := rfl

@[simp] theorem resetRegisters_decoded (s : State) :
    (s.resetRegisters).decoded = s.decoded := rfl

@[simp] theorem takeArrival_config (a : Arrival) (later : List Arrival) (s : State) :
    (s.takeArrival a later).config = s.config := rfl

@[simp] theorem takeArrival_decoder (a : Arrival) (later : List Arrival) (s : State) :
    (s.takeArrival a later).decoder = s.decoder := rfl

@[simp] theorem takeArrival_encoder (a : Arrival) (later : List Arrival) (s : State) :
    (s.takeArrival a later).encoder = s.encoder := rfl

@[simp] theorem takeArrival_enabled (a : Arrival) (later : List Arrival) (s : State) :
    (s.takeArrival a later).enabled = s.enabled := rfl

@[simp] theorem takeArrival_clk (a : Arrival) (later : List Arrival) (s : State) :
    (s.takeArrival a later).clk = wrap s.config.tw a.time := rfl

@[simp] theorem takeArrival_inbox (a : Arrival) (later : List Arrival) (s : State) :
    (s.takeArrival a later).inbox = later := rfl

@[simp] theorem takeArrival_result (a : Arrival) (later : List Arrival) (s : State) :
    (s.takeArrival a later).result = s.result := rfl

@[simp] theorem takeArrival_decoded (a : Arrival) (later : List Arrival) (s : State) :
    (s.takeArrival a later).decoded = s.decoded := rfl

@[simp] theorem atClock_config (now : Stamp) (s : State) :
    (s.atClock now).config = s.config := rfl

@[simp] theorem atClock_decoder (now : Stamp) (s : State) :
    (s.atClock now).decoder = s.decoder := rfl

@[simp] theorem atClock_encoder (now : Stamp) (s : State) :
    (s.atClock now).encoder = s.encoder := rfl

@[simp] theorem atClock_enabled (now : Stamp) (s : State) :
    (s.atClock now).enabled = s.enabled := rfl

@[simp] theorem atClock_clk (now : Stamp) (s : State) :
    (s.atClock now).clk = now := rfl

@[simp] theorem atClock_inbox (now : Stamp) (s : State) :
    (s.atClock now).inbox = s.inbox := rfl

@[simp] theorem atClock_result (now : Stamp) (s : State) :
    (s.atClock now).result = s.result := rfl

@[simp] theorem atClock_decoded (now : Stamp) (s : State) :
    (s.atClock now).decoded = s.decoded := rfl

@[simp] theorem now_takeArrival (a : Arrival) (later : List Arrival) (s : State) :
    (s.takeArrival a later).now = wrap s.config.tw a.time := by simp [State.now, wrap]

@[simp] theorem now_atClock (now : Stamp) (s : State) : (s.atClock now).now = wrap s.config.tw now := rfl

end Sys2Proof.Machine
end

