-- ==== Sys2Proof/Laws/Codec.lean ====
section
/-!
SUPPORT. Numbers written in digits, to any base and of any length, and from them the two packings of twelve symbols: two
bits each in a vector (rule R57), base 3 in a code (rules R56, R82).
-/

namespace Sys2Proof.Machine

/-! ## Digits -/

theorem digitValue_concat (b : Nat) (ds : List Nat) (d : Nat) :
    digitValue b (ds ++ [d]) = digitValue b ds * b + d := by
  simp [digitValue]

/-- The value of digits stays below the power of their number. -/
theorem digitValue_lt {b : Nat} (ds : List Nat) (hd : ∀ d ∈ ds, d < b) : digitValue b ds < b ^ ds.length := by
  induction ds using List.reverseRecOn with
  | nil => simp [digitValue]
  | append_singleton ds d ih =>
    have h1 : digitValue b ds + 1 ≤ b ^ ds.length := ih fun x hx => hd x (by simp [hx])
    have h2 : d < b := hd d (by simp)
    rw [digitValue_concat, List.length_append, List.length_singleton, Nat.pow_succ]
    calc digitValue b ds * b + d < (digitValue b ds + 1) * b := by rw [Nat.add_mul]; omega
      _ ≤ b ^ ds.length * b := Nat.mul_le_mul_right b h1

/-- Reading a digit off the value gives the digit. -/
theorem digitValue_digit {b : Nat} (ds : List Nat) (hd : ∀ d ∈ ds, d < b) (i : Nat) (hi : i < ds.length) :
    digitValue b ds / b ^ (ds.length - 1 - i) % b = ds[i] := by
  induction ds using List.reverseRecOn with
  | nil => simp at hi
  | append_singleton ds d ih =>
    have hlt : d < b := hd d (by simp)
    have hdiv : (digitValue b ds * b + d) / b = digitValue b ds := by
      rw [Nat.mul_comm, Nat.mul_add_div (by omega), Nat.div_eq_of_lt hlt, Nat.add_zero]
    rw [digitValue_concat]
    by_cases h : i < ds.length
    · have hexp : (ds ++ [d]).length - 1 - i = ds.length - 1 - i + 1 := by simp; omega
      rw [hexp, Nat.pow_succ', ← Nat.div_div_eq_div_mul, hdiv, ih (fun x hx => hd x (by simp [hx])) h,
        List.getElem_append_left h]
    · have hlast : i = ds.length := by simp at hi; omega
      subst hlast
      simp [Nat.mod_eq_of_lt hlt]

/-- The value of the `n` low digits of a number is the number modulo `b^n`. -/
theorem digitValue_digits (b n x : Nat) :
    digitValue b ((List.range n).map fun i => x / b ^ (n - 1 - i) % b) = x % b ^ n := by
  induction n generalizing x with
  | zero => simp [digitValue, Nat.mod_one]
  | succ n ih =>
    have hshift : (List.range n).map (fun i => x / b ^ (n + 1 - 1 - i) % b) =
        (List.range n).map fun i => x / b / b ^ (n - 1 - i) % b := by
      refine List.map_congr_left fun i hi => ?_
      have hi := List.mem_range.mp hi
      have hexp : n + 1 - 1 - i = n - 1 - i + 1 := by omega
      rw [hexp, Nat.pow_succ', Nat.div_div_eq_div_mul]
    rw [List.range_succ, List.map_append, hshift, List.map_singleton, digitValue_concat, ih, Nat.pow_succ', Nat.mod_mul]
    simp [Nat.mul_comm, Nat.add_comm]

/-- Lists of the same length are equal if they read the same at every place. -/
theorem map_range_eq {n : Nat} {ds : List Nat} {f : Nat → Nat} (hl : ds.length = n)
    (h : ∀ i (hi : i < ds.length), f i = ds[i]) : (List.range n).map f = ds :=
  List.ext_getElem (by simp [hl]) fun i _ hi => by simpa using h i hi

/-! ## Symbol vectors -/

theorem mem_symIndices {i : Nat} : i ∈ symIndices ↔ i < 12 := List.mem_range

theorem symAt_toNat (v : BitVec 24) (i : Nat) : (symAt v i).toNat = v.toNat / 2 ^ (22 - 2 * i) % 4 := by
  simp [symAt, BitVec.extractLsb'_toNat, Nat.shiftRight_eq_div_pow]

theorem symAt_lt (v : BitVec 24) (i : Nat) : (symAt v i).toNat < 4 := (symAt v i).isLt

/-- Symbol `i` is digit `i` of the vector to the base 4. -/
theorem symAt_digit (v : BitVec 24) {i : Nat} (hi : i < 12) : (symAt v i).toNat = v.toNat / 4 ^ (12 - 1 - i) % 4 := by
  have h : (4 : Nat) ^ (12 - 1 - i) = 2 ^ (22 - 2 * i) := by
    rw [show (4 : Nat) = 2 ^ 2 from rfl, ← Nat.pow_mul]
    congr 1
    omega
  rw [symAt_toNat, h]

theorem symDigits_eq (v : BitVec 24) :
    symDigits v = (List.range 12).map fun i => v.toNat / 4 ^ (12 - 1 - i) % 4 :=
  List.map_congr_left fun _ hi => symAt_digit v (mem_symIndices.mp hi)

theorem symDigits_length (v : BitVec 24) : (symDigits v).length = 12 := rfl

theorem symDigits_getElem (v : BitVec 24) {i : Nat} (hi : i < (symDigits v).length) :
    (symDigits v)[i] = (symAt v i).toNat := by simp [symDigits, symIndices]

/-- Packing then reading gives the symbols back. -/
theorem symDigits_packDigits {ds : List Nat} (hl : ds.length = 12) (hd : ∀ d ∈ ds, d < 4) :
    symDigits (packDigits ds) = ds := by
  have hlt : digitValue 4 ds < 2 ^ 24 := by simpa [hl] using digitValue_lt ds hd
  rw [symDigits_eq, packDigits, BitVec.toNat_ofNat, Nat.mod_eq_of_lt hlt]
  exact map_range_eq hl fun i hi => by simpa [hl] using digitValue_digit ds hd i hi

/-- Reading then packing gives the vector back. -/
theorem packDigits_symDigits (v : BitVec 24) : packDigits (symDigits v) = v := by
  apply BitVec.eq_of_toNat_eq
  rw [packDigits, symDigits_eq, digitValue_digits, BitVec.toNat_ofNat]
  have h := v.isLt
  omega

/-- No symbol is reserved exactly when each of the twelve is below 3. -/
theorem hasReservedSymbol_eq_false (v : BitVec 24) :
    hasReservedSymbol v = false ↔ ∀ i, i < 12 → symAt v i ≠ 3#2 := by
  simp only [hasReservedSymbol, List.any_eq_false, symDigits, List.mem_map, mem_symIndices, forall_exists_index,
    and_imp, forall_apply_eq_imp_iff₂, beq_iff_eq]
  exact forall₂_congr fun i _ => not_congr ⟨fun h => BitVec.eq_of_toNat_eq (by simpa using h), fun h => by simp [h]⟩

theorem symAt_eq_of_symDigits {v : BitVec 24} {ds : List Nat} (h : symDigits v = ds) {i : Nat} (hi : i < 12) :
    ds[i]? = some (symAt v i).toNat := by
  subst h
  simp [symDigits, symIndices, hi]

/-! ## Codes -/

/-- The value of base-3 digits stays below the power of their number. -/
theorem codeOfDigits_lt (ds : List Nat) (hd : ∀ d ∈ ds, d < 3) : codeOfDigits ds < 3 ^ ds.length := digitValue_lt ds hd

/-- The digits of the value of twelve digits are those digits. -/
theorem codeDigit_codeOfDigits {ds : List Nat} (hl : ds.length = 12) (hd : ∀ d ∈ ds, d < 3) :
    symIndices.map (codeDigit (codeOfDigits ds)) = ds :=
  map_range_eq hl fun i hi => by simpa [hl, codeDigit, codeOfDigits] using digitValue_digit ds hd i hi

/-- The value of the digits of a code is the code modulo `3^12`. -/
theorem codeOfDigits_codeDigit (c : Nat) : codeOfDigits (symIndices.map (codeDigit c)) = c % 3 ^ 12 :=
  digitValue_digits 3 12 c

/-- A digit of a code depends on the code modulo `3^12` alone. -/
theorem codeDigit_mod (c i : Nat) (hi : i < 12) : codeDigit (c % 3 ^ 12) i = codeDigit c i := by
  have h : (3 : Nat) ^ 12 = 3 ^ (11 - i) * 3 ^ (i + 1) := by rw [← Nat.pow_add]; congr 1; omega
  rw [codeDigit, codeDigit, h, Nat.mod_mul_right_div_self, Nat.mod_mod_of_dvd]
  exact Dvd.intro_left (3 ^ i) rfl

/-- The symbols of a code are its base-3 digits. -/
theorem symDigits_codeToSymv (c : BitVec 20) : symDigits (codeToSymv c) = symIndices.map (codeDigit c.toNat) := by
  apply symDigits_packDigits rfl
  intro d hd
  obtain ⟨i, -, rfl⟩ := List.mem_map.mp hd
  exact Nat.lt_of_lt_of_le (Nat.mod_lt _ (by decide)) (by decide)

theorem symAt_codeToSymv (c : BitVec 20) {i : Nat} (hi : i < 12) :
    (symAt (codeToSymv c) i).toNat = codeDigit c.toNat i := by
  simpa [symIndices, hi] using (symAt_eq_of_symDigits (symDigits_codeToSymv c) hi).symm

/-- A code never gives the reserved symbol. -/
theorem codeToSymv_no_reserved (c : BitVec 20) : hasReservedSymbol (codeToSymv c) = false := by
  rw [hasReservedSymbol_eq_false]
  intro i hi h
  have h1 := symAt_codeToSymv c hi
  rw [h] at h1
  have : codeDigit c.toNat i < 3 := Nat.mod_lt _ (by decide)
  simp at h1; omega

/-- A vector without the reserved symbol has digits below 3, so its code is below `3^12`. -/
theorem symDigits_lt_three {v : BitVec 24} (h : hasReservedSymbol v = false) : ∀ d ∈ symDigits v, d < 3 := by
  rw [hasReservedSymbol_eq_false] at h
  intro d hd
  obtain ⟨i, hi, rfl⟩ := List.mem_map.mp hd
  have h1 := h i (mem_symIndices.mp hi)
  have h2 := symAt_lt v i
  have h3 : (symAt v i).toNat ≠ 3 := fun hh => h1 (BitVec.eq_of_toNat_eq (by simpa using hh))
  omega

theorem codeOfSymv_lt {v : BitVec 24} (h : hasReservedSymbol v = false) : codeOfSymv v < 531441 := by
  simpa [codeOfSymv, symDigits_length] using codeOfDigits_lt _ (symDigits_lt_three h)

/-- A legal vector is the vector of its code. -/
theorem codeToSymv_codeOfSymv {v : BitVec 24} (h : hasReservedSymbol v = false) :
    codeToSymv (BitVec.ofNat 20 (codeOfSymv v)) = v := by
  have hlt := codeOfSymv_lt h
  have hm : codeOfSymv v % 2 ^ 20 = codeOfSymv v := Nat.mod_eq_of_lt (by omega)
  rw [codeToSymv, BitVec.toNat_ofNat, hm, codeOfSymv,
    codeDigit_codeOfDigits (symDigits_length v) (symDigits_lt_three h), packDigits_symDigits]

/-! ## Tuples -/

theorem trit_toNat_lt (t : Trit) : t.toNat < 3 := by cases t <;> decide

theorem symDigits_packTrits {ts : List Trit} (hl : ts.length = 12) :
    symDigits (packTrits ts) = ts.map Trit.toNat :=
  symDigits_packDigits (by simpa using hl) (by
    intro d hd
    obtain ⟨t, -, rfl⟩ := List.mem_map.mp hd
    exact Nat.lt_trans (trit_toNat_lt t) (by decide))

/-- Any layout gives twelve symbols. -/
@[simp] theorem layoutSymbols_length (layout : Layout) (fs : TupleFields) : (layoutSymbols layout fs).length = 12 := by
  simp [layoutSymbols]

/-- Whatever the layouts are, every tuple has twelve symbols. -/
@[simp] theorem tupleSymbols_length (ls : Layouts) (tuple : Word) : (tupleSymbols ls tuple).length = 12 := by
  unfold tupleSymbols
  split
  · unfold kakuSymbols
    split <;> exact layoutSymbols_length _ _
  all_goals exact layoutSymbols_length _ _

/-- Without a group the field `group` does not count (rule R73). -/
theorem kakuSymbols_plain (ls : Layouts) (address : BitVec 8) (device : BitVec 16) (on : Bool) (group : BitVec 4) :
    kakuSymbols ls address device on false group = layoutSymbols ls.kaku (kakuFields address device on) := rfl

theorem testBit_eq_of_mod {v v' k w : Nat} (hk : k < w) (h : v % 2 ^ w = v' % 2 ^ w) : v.testBit k = v'.testBit k := by
  simpa [Nat.testBit_mod_two_pow, hk] using congrArg (·.testBit k) h

theorem and_eq_of_mod {v v' mask w : Nat} (hm : mask < 2 ^ w) (h : v % 2 ^ w = v' % 2 ^ w) :
    v &&& mask = v' &&& mask := by
  have low : ∀ u : Nat, u &&& mask = (u % 2 ^ w) &&& mask := fun u => by
    conv_lhs => rw [← Nat.mod_eq_of_lt (Nat.lt_of_le_of_lt Nat.and_le_right hm), Nat.and_mod_two_pow,
      Nat.mod_eq_of_lt hm]
  rw [low v, h, ← low v']

/-- Rule R90 (e), a source that asks for one of the low `w` bits: two values alike in those give the same symbol. -/
theorem sourceSymbol_bit_wraps {fs fs' : TupleFields} {field : Field} {k w : Nat} (one zero : Trit) (hk : k < w)
    (h : fieldValue fs field % 2 ^ w = fieldValue fs' field % 2 ^ w) :
    sourceSymbol fs (.bit field k one zero) = sourceSymbol fs' (.bit field k one zero) := by
  simp only [sourceSymbol, testBit_eq_of_mod hk h]

/-- Rule R90 (e), a source that compares the low `w` bits or some of them. -/
theorem sourceSymbol_compare_wraps {fs fs' : TupleFields} {field : Field} {mask w : Nat} (n : Nat)
    (less equal greater : Trit) (hm : mask < 2 ^ w)
    (h : fieldValue fs field % 2 ^ w = fieldValue fs' field % 2 ^ w) :
    sourceSymbol fs (.compare field mask n less equal greater) =
      sourceSymbol fs' (.compare field mask n less equal greater) := by
  simp only [sourceSymbol, and_eq_of_mod hm h]

/-- The one-hot device of the `Action` and `Elro` tables (rules R87, R89). -/
theorem sourceSymbol_deviceOneHot {fs : TupleFields} (n : Nat) (h : fs.device < 256) :
    sourceSymbol fs (deviceOneHot n) = if n = fs.device then .low else .float := by
  have hv : fs.device &&& 255 = fs.device := (Nat.and_two_pow_sub_one_eq_mod _ 8).trans (Nat.mod_eq_of_lt h)
  change (if fs.device &&& 255 < n then Trit.float else if fs.device &&& 255 = n then .low else .float) = _
  rw [hv]
  by_cases hn : n = fs.device
  · simp [hn]
  · simp [hn, Ne.symm hn]

/-- A layout given by its sources gives the symbol of source `i` at place `i`. -/
theorem layoutSymbols_layoutOf (source : Nat → TritSource) (fs : TupleFields) {i : Nat} (hi : i < 12) :
    (layoutSymbols (layoutOf source) fs)[i]? = some (sourceSymbol fs (source i)) := by
  simp [layoutSymbols, layoutOf, hi]

/-- Symbol `i` of the vector packed from twelve symbols. -/
theorem symAt_packTrits {ts : List Trit} (hl : ts.length = 12) {i : Nat} {t : Trit} (ht : ts[i]? = some t) :
    (symAt (packTrits ts) i).toNat = t.toNat := by
  have hi : i < 12 := by rw [← hl]; exact (List.getElem?_eq_some_iff.mp ht).1
  simpa [ht] using (symAt_eq_of_symDigits (symDigits_packTrits hl) hi).symm

end Sys2Proof.Machine
end

