-- ==== Sys2Proof/Laws/Ops.lean ====
section
/-!
SUPPORT. For each shared operation of Machine/Ops.lean, once, all it can do. Proofs cite these and do not unfold the
operations.
-/

namespace Sys2Proof.Machine

/-! ## Intervals -/

theorem wrap_lt (tw n : Nat) : wrap tw n < 2 ^ tw := Nat.mod_lt _ (Nat.two_pow_pos tw)

theorem wrap_of_lt {tw n : Nat} (h : n < 2 ^ tw) : wrap tw n = n := Nat.mod_eq_of_lt h

@[simp] theorem wrap_wrap (tw n : Nat) : wrap tw (wrap tw n) = wrap tw n := Nat.mod_mod _ _

/-- An interval as an integer (rule R4). -/
theorem interval_cast (tw : Nat) (later earlier : Stamp) :
    (interval tw later earlier : Int) = ((later : Int) - earlier) % (2 ^ tw : Nat) :=
  Int.toNat_of_nonneg (Int.emod_nonneg _ (by exact_mod_cast (Nat.two_pow_pos tw).ne'))

theorem interval_lt (tw : Nat) (later earlier : Stamp) : interval tw later earlier < 2 ^ tw := by
  have h := Int.emod_lt_of_pos ((later : Int) - earlier) (b := (2 ^ tw : Nat)) (by exact_mod_cast Nat.two_pow_pos tw)
  rw [← interval_cast] at h
  exact_mod_cast h

@[simp] theorem interval_self (tw : Nat) (t : Stamp) : interval tw t t = 0 := by simp [interval]

/-- Only the `TW` bits of the samples count. -/
@[simp] theorem interval_wrap_left (tw : Nat) (later earlier : Stamp) :
    interval tw (wrap tw later) earlier = interval tw later earlier := by
  simp [interval, wrap]

@[simp] theorem interval_wrap_right (tw : Nat) (later earlier : Stamp) :
    interval tw later (wrap tw earlier) = interval tw later earlier := by
  simp [interval, wrap]

/-- Intervals of the same end add up modulo the clock's range. -/
theorem interval_trans (tw : Nat) (a b c : Stamp) :
    interval tw c a = (interval tw c b + interval tw b a) % 2 ^ tw := by
  have h : (interval tw c a : Int) = ((interval tw c b + interval tw b a : Nat) : Int) % (2 ^ tw : Nat) := by
    rw [Nat.cast_add, interval_cast, interval_cast, interval_cast, ← Int.add_emod]
    congr 1
    ring
  exact_mod_cast h

theorem interval_add (tw : Nat) (t : Stamp) {n : Nat} (h : n < 2 ^ tw) : interval tw (t + n) t = n := by
  have h1 : (interval tw (t + n) t : Int) = (n : Int) % (2 ^ tw : Nat) := by
    rw [interval_cast]
    congr 1
    push_cast
    ring
  have h2 : interval tw (t + n) t = n % 2 ^ tw := by exact_mod_cast h1
  rw [h2, Nat.mod_eq_of_lt h]

/-- From zero, an interval is the sample itself. -/
theorem interval_zero (tw : Nat) (t : Stamp) : interval tw t 0 = wrap tw t := by simp [interval, wrap]; norm_cast

/-! ## Classified intervals -/

theorem patternTrit_cases (p : BitVec 4) :
    (p = 0b0101#4 ∧ patternTrit p = some .low) ∨ (p = 0b1010#4 ∧ patternTrit p = some .high) ∨
    (p = 0b0110#4 ∧ patternTrit p = some .float) ∨
    (p ≠ 0b0101#4 ∧ p ≠ 0b1010#4 ∧ p ≠ 0b0110#4 ∧ patternTrit p = none) := by
  unfold patternTrit
  split
  · exact .inl ⟨‹_›, rfl⟩
  · split
    · exact .inr (.inl ⟨‹_›, rfl⟩)
    · split
      · exact .inr (.inr (.inl ⟨‹_›, rfl⟩))
      · exact .inr (.inr (.inr ⟨‹_›, ‹_›, ‹_›, rfl⟩))

/-- All that a classified interval can do in a symbol state. -/
theorem acceptBit_cases (n : Fin 48) (bit : Bool) (d : Decoder) :
    (n.val % 4 ≠ 3 ∧ acceptBit n bit d = advance n (shiftBit bit d)) ∨
    (n.val % 4 = 3 ∧ ∃ t, patternTrit (shiftBit bit d).receivedBit = some t ∧
      acceptBit n bit d = advance n (accumulate t (shiftBit bit d))) ∨
    (n.val % 4 = 3 ∧ patternTrit (shiftBit bit d).receivedBit = none ∧
      acceptBit n bit d = abort (shiftBit bit d)) := by
  unfold acceptBit
  by_cases h : n.val % 4 = 3
  · cases hp : patternTrit (shiftBit bit d).receivedBit
    · exact .inr (.inr ⟨h, rfl, by simp only [h, hp, if_true]⟩)
    · exact .inr (.inl ⟨h, _, rfl, by simp only [h, hp, if_true]⟩)
  · exact .inl ⟨h, by simp [h]⟩

theorem nextSymbolState_of_lt {n : Fin 48} (h : n.val + 1 < 48) : nextSymbolState n = .symbol ⟨n.val + 1, h⟩ := by
  simp [nextSymbolState, h]

theorem nextSymbolState_last {n : Fin 48} (h : n.val = 47) : nextSymbolState n = .finalSync1 := by
  simp [nextSymbolState, h]

theorem accountRepeat_eq (d : Decoder) :
    accountRepeat d = { d with
      repeats := if d.receivedCode = d.previousCode then d.repeats + 1#8 else 1#8
      previousCode := d.receivedCode } := by
  unfold accountRepeat
  split
  · rename_i h; simp [← h]
  · rfl

/-- All that a candidate can do: emitted, dropped, or another frame is awaited. -/
theorem candidate_cases (d : Decoder) (count : BitVec 8)
    (hc : count = if d.receivedCode = d.previousCode then d.repeats + 1#8 else 1#8) :
    (d.minRepeats.toNat ≤ count.toNat ∧ d.inCallback = false ∧
      candidate d = ({ d with repeats := count, previousCode := d.receivedCode, inCallback := true,
                              state := .syncWait }, some ⟨d.receivedCode, BitVec.ofNat 32 d.period⟩)) ∨
    (d.minRepeats.toNat ≤ count.toNat ∧ d.inCallback = true ∧
      candidate d = ({ d with repeats := count, previousCode := d.receivedCode, state := .syncWait }, none)) ∨
    (count.toNat < d.minRepeats.toNat ∧
      candidate d = ({ d with repeats := count, previousCode := d.receivedCode, receivedCode := 0,
                              state := .symbol 0 }, none)) := by
  unfold candidate
  rw [accountRepeat_eq, ← hc]
  by_cases h : d.minRepeats.toNat ≤ count.toNat
  · cases hi : d.inCallback
    · exact .inl ⟨h, rfl, by simp [thresholdMet, h, deliver]⟩
    · exact .inr (.inl ⟨h, rfl, by simp [thresholdMet, h, deliver]⟩)
  · exact .inr (.inr ⟨Nat.lt_of_not_le h, by simp [thresholdMet, h, continueFrame]⟩)

/-- All that a classified interval can do, in any state. -/
theorem consumeClass_cases (c : IntervalClass) (d : Decoder) :
    (d.state = .syncWait ∧ consumeClass c d = (d, none)) ∨
    (d.state ≠ .syncWait ∧ consumeClass c d = (abort d, none)) ∨
    (∃ n bit, d.state = .symbol n ∧ c = (if bit then .long else .short) ∧
      consumeClass c d = (acceptBit n bit d, none)) ∨
    (d.state = .finalSync1 ∧ c = .short ∧ consumeClass c d = ({ d with state := .finalSync2 }, none)) ∨
    (d.state = .finalSync2 ∧ c = .gap ∧ consumeClass c d = candidate d) := by
  cases hs : d.state with
  | syncWait => exact .inl ⟨rfl, by simp [consumeClass, hs]⟩
  | symbol n =>
    cases c with
    | short => exact .inr (.inr (.inl ⟨n, false, rfl, rfl, by simp [consumeClass, hs]⟩))
    | long => exact .inr (.inr (.inl ⟨n, true, rfl, rfl, by simp [consumeClass, hs]⟩))
    | gap => exact .inr (.inl ⟨by simp, by simp [consumeClass, hs]⟩)
    | bad => exact .inr (.inl ⟨by simp, by simp [consumeClass, hs]⟩)
  | finalSync1 =>
    cases c with
    | short => exact .inr (.inr (.inr (.inl ⟨rfl, rfl, by simp [consumeClass, hs]⟩)))
    | long => exact .inr (.inl ⟨by simp, by simp [consumeClass, hs]⟩)
    | gap => exact .inr (.inl ⟨by simp, by simp [consumeClass, hs]⟩)
    | bad => exact .inr (.inl ⟨by simp, by simp [consumeClass, hs]⟩)
  | finalSync2 =>
    cases c with
    | gap => exact .inr (.inr (.inr (.inr ⟨rfl, rfl, by simp [consumeClass, hs]⟩)))
    | short => exact .inr (.inl ⟨by simp, by simp [consumeClass, hs]⟩)
    | long => exact .inr (.inl ⟨by simp, by simp [consumeClass, hs]⟩)
    | bad => exact .inr (.inl ⟨by simp, by simp [consumeClass, hs]⟩)

/-- Nothing happens in `SYNC_WAIT`. -/
theorem consumeClasses_syncWait (cs : List IntervalClass) {d : Decoder} (h : d.state = .syncWait) :
    consumeClasses cs d = (d, none) := by
  unfold consumeClasses
  induction cs with
  | nil => rfl
  | cons c cs ih => simp [consumeClass, h]; exact ih

/-- All that reception can do. -/
theorem receive_cases (cs : List IntervalClass) (s : State) :
    (s.enabled = true ∧ s.decoder.skip = false ∧ s.receive cs = s.withDecoder (consumeClasses cs s.decoder)) ∨
    ((s.enabled = false ∨ s.decoder.skip = true) ∧ s.receive cs = s) := by
  cases he : s.enabled <;> cases hk : s.decoder.skip <;> simp [State.receive, State.listening, he, hk]

/-! ## Edges -/

/-- All that a processed duration can do. -/
theorem consumeDuration_cases (duration : Nat) (d : Decoder) :
    (d.state = .syncWait ∧ duration ≤ 3720 ∧ consumeDuration duration d = (d, none)) ∨
    (d.state = .syncWait ∧ 3720 < duration ∧ consumeDuration duration d = (detectSync duration d, none)) ∨
    (d.state ≠ .syncWait ∧ consumeDuration duration d = consumeClass (classify d duration) d) := by
  cases hs : d.state with
  | syncWait =>
    by_cases h : 3720 < duration
    · exact .inr (.inl ⟨rfl, h, by simp [consumeDuration, hs, isSyncGap, h]⟩)
    · exact .inl ⟨rfl, Nat.le_of_not_lt h, by simp [consumeDuration, hs, isSyncGap, h]⟩
  | symbol n => exact .inr (.inr ⟨by simp, by simp [consumeDuration, hs]⟩)
  | finalSync1 => exact .inr (.inr ⟨by simp, by simp [consumeDuration, hs]⟩)
  | finalSync2 => exact .inr (.inr ⟨by simp, by simp [consumeDuration, hs]⟩)

theorem isGlitch_shiftWindow (tw : Nat) (now : Stamp) (d : Decoder) :
    isGlitch tw (shiftWindow now d) = true ↔ d.state ≠ .syncWait ∧ interval tw now d.t2 < d.min1Period := by
  simp only [isGlitch, Bool.and_eq_true, decide_eq_true_eq]
  rfl

/-- All that an edge can do when the decoder is enabled: skipped, discarded, or its duration consumed. -/
theorem edgeStep_cases (tw : Nat) (now : Stamp) (d : Decoder) :
    (d.skip = true ∧ edgeStep tw now d = ({ d with t1 := d.t2, t2 := now, skip := false }, none)) ∨
    (d.skip = false ∧ d.state ≠ .syncWait ∧ interval tw now d.t2 < d.min1Period ∧
      edgeStep tw now d = ({ d with t1 := d.t2, t2 := now, skip := true }, none)) ∨
    (d.skip = false ∧ (d.state = .syncWait ∨ d.min1Period ≤ interval tw now d.t2) ∧
      edgeStep tw now d = consumeDuration (interval tw d.t2 d.t0) { d with t0 := d.t2, t1 := d.t2, t2 := now }) := by
  cases hk : d.skip with
  | true => exact .inl ⟨rfl, by simp [edgeStep, hk, shiftWindow]⟩
  | false =>
    by_cases hg : isGlitch tw (shiftWindow now d) = true
    · have h := (isGlitch_shiftWindow tw now d).mp hg
      exact .inr (.inl ⟨rfl, h.1, h.2, by simp only [edgeStep, shiftWindow_skip, hk, hg, if_true]; rfl⟩)
    · have h : d.state = .syncWait ∨ d.min1Period ≤ interval tw now d.t2 := by
        rw [isGlitch_shiftWindow] at hg
        by_cases hs : d.state = .syncWait
        · exact .inl hs
        · exact .inr (Nat.le_of_not_lt fun hl => hg ⟨hs, hl⟩)
      refine .inr (.inr ⟨rfl, h, ?_⟩)
      simp [edgeStep, hk, hg, pendingDuration]
      simp [shiftWindow, takeInterval, hk]

/-! ## Segments -/

/-- Every segment of the table has 1, 3 or 31 periods, and a row has at most four. -/
theorem segmentRow_mem {e : Encoder} {len : Nat} (h : len ∈ segmentRow e) : len = 1 ∨ len = 3 ∨ len = 31 := by
  unfold segmentRow at h
  split at h
  · unfold symbolLens at h
    split at h <;> simp at h <;> omega
  · split at h
    · simp [syncLens] at h; omega
    · simp at h

theorem segmentMicros_le {e : Encoder} {len : Nat} (h : segmentMicros e = some len) : len ≤ 31 * 511 := by
  simp only [segmentMicros, Option.map_eq_some_iff] at h
  obtain ⟨l, hl, rfl⟩ := h
  have hm := segmentRow_mem (List.mem_of_getElem? hl)
  have hp := e.txPeriod.isLt
  exact Nat.mul_le_mul (by omega) (by omega)

/-- When a segment end exists, it lies the segment's length after its start, and `TX_STEP` is due then. -/
theorem segmentEnd_eq_some {tw : Nat} {e : Encoder} {t : Stamp} (h : segmentEnd tw e = some t) :
    ∃ len, e.txBusy = true ∧ segmentMicros e = some len ∧ len ≤ 31 * 511 ∧ len < 2 ^ tw ∧
      t = wrap tw (e.txSegStart + len) ∧ interval tw t e.txSegStart = len ∧ segmentDue tw e t = true := by
  unfold segmentEnd at h
  split at h
  · rename_i hb
    rw [Option.map_eq_some_iff] at h
    obtain ⟨len, hl, rfl⟩ := h
    obtain ⟨hl, hlt⟩ := Option.filter_eq_some_iff.mp hl
    rw [decide_eq_true_eq] at hlt
    have hi : interval tw (wrap tw (e.txSegStart + len)) e.txSegStart = len := by
      rw [interval_wrap_left, interval_add tw _ hlt]
    exact ⟨len, hb, hl, segmentMicros_le hl, hlt, rfl, hi, by simp [segmentDue, hb, hl, hi]⟩
  · cases h

/-- With a clock of at least 14 bits every segment of the table ends (rule R137). -/
theorem segmentEnd_of_busy {tw : Nat} {e : Encoder} {len : Nat} (htw : 14 ≤ tw) (hb : e.txBusy = true)
    (hl : segmentMicros e = some len) : segmentEnd tw e = some (wrap tw (e.txSegStart + len)) := by
  have h1 : 2 ^ 14 ≤ 2 ^ tw := Nat.pow_le_pow_right (by decide) htw
  have h2 := segmentMicros_le hl
  have h3 : len < 2 ^ tw := by omega
  simp [segmentEnd, hb, hl, h3]

/-- When a send is turned away. -/
theorem sendRefused_iff (e : Encoder) (word : Word) :
    sendRefused e word = true ↔ e.txBusy = true ∨ periodField word = 0#9 := by
  simp [sendRefused]

theorem segmentEnd_of_idle (tw : Nat) {e : Encoder} (h : e.txBusy = false) : segmentEnd tw e = none := by simp [segmentEnd, h]

/-- All that the end of a segment can do. -/
theorem txAdvance_cases (now : Stamp) (s : State) :
    (lastSegment s.encoder = false ∧
      txAdvance now s = { s with encoder := nextSegment { s.encoder with txSegStart := now } }) ∨
    (lastSegment s.encoder = true ∧ s.encoder.txSym.toNat < 12 ∧
      txAdvance now s = { s with encoder := nextSymbol { s.encoder with txSegStart := now } }) ∨
    (lastSegment s.encoder = true ∧ ¬ s.encoder.txSym.toNat < 12 ∧
      s.encoder.txRep.toNat + 1 < s.encoder.txRepeats.toNat ∧
      txAdvance now s = { s with encoder := nextFrame { s.encoder with txSegStart := now } }) ∨
    (lastSegment s.encoder = true ∧ ¬ s.encoder.txSym.toNat < 12 ∧
      ¬ s.encoder.txRep.toNat + 1 < s.encoder.txRepeats.toNat ∧
      txAdvance now s = { s with
        encoder := finishTransmission { s.encoder with txSegStart := now }
        enabled := s.encoder.txRestore || s.enabled }) := by
  have hl : lastSegment { s.encoder with txSegStart := now } = lastSegment s.encoder := rfl
  cases h : lastSegment s.encoder
  · exact .inl ⟨rfl, by simp [txAdvance, hl, h]⟩
  · by_cases h2 : s.encoder.txSym.toNat < 12
    · exact .inr (.inl ⟨rfl, h2, by simp [txAdvance, hl, h, h2]⟩)
    · by_cases h3 : s.encoder.txRep.toNat + 1 < s.encoder.txRepeats.toNat
      · exact .inr (.inr (.inl ⟨rfl, h2, h3, by simp [txAdvance, hl, h, h2, h3]⟩))
      · exact .inr (.inr (.inr ⟨rfl, h2, h3, by simp [txAdvance, hl, h, h2, h3]⟩))

/-- The end of a segment touches the encoder and, at the end of a transmission, `enabled`; nothing else. -/
theorem txAdvance_frame (now : Stamp) (s : State) :
    (txAdvance now s).config = s.config ∧ (txAdvance now s).decoder = s.decoder ∧ (txAdvance now s).clk = s.clk ∧ (txAdvance now s).inbox = s.inbox ∧
    (txAdvance now s).result = s.result ∧ (txAdvance now s).decoded = s.decoded ∧
    (txAdvance now s).encoder.txSegStart = now := by
  rcases txAdvance_cases now s with ⟨-, h⟩ | ⟨-, -, h⟩ | ⟨-, -, -, h⟩ | ⟨-, -, -, h⟩ <;> rw [h] <;>
    simp [nextSegment, nextSymbol, nextFrame, finishTransmission]

theorem runSegments_frame (k : Nat) (s : State) :
    (runSegments k s).config = s.config ∧ (runSegments k s).decoder = s.decoder ∧ (runSegments k s).inbox = s.inbox ∧
    (runSegments k s).result = s.result ∧ (runSegments k s).decoded = s.decoded := by
  induction k generalizing s with
  | zero => simp [runSegments]
  | succ k ih =>
    unfold runSegments
    split
    · rename_i t _
      have h := ih (txAdvance t { s with clk := t })
      have h2 := txAdvance_frame t { s with clk := t }
      simp [h, h2]
    · simp

/-! ## What comes next -/

/-- All that can come next. -/
theorem nextUp_cases (s : State) :
    (segmentEnd s.config.tw s.encoder = none ∧ s.inbox = [] ∧ nextUp s = .rest) ∨
    (∃ t, segmentEnd s.config.tw s.encoder = some t ∧ nextUp s = .segmentEnd t ∧
      ∀ a later, s.inbox = a :: later → interval s.config.tw t s.clk < interval s.config.tw a.time s.clk ∨
        (interval s.config.tw t s.clk = interval s.config.tw a.time s.clk ∧ a.beforeTx = false)) ∨
    (∃ a later, s.inbox = a :: later ∧ nextUp s = .arrival a later ∧
      ∀ t, segmentEnd s.config.tw s.encoder = some t → interval s.config.tw a.time s.clk < interval s.config.tw t s.clk ∨
        (interval s.config.tw a.time s.clk = interval s.config.tw t s.clk ∧ a.beforeTx = true)) := by
  cases he : segmentEnd s.config.tw s.encoder with
  | none =>
    cases hb : s.inbox with
    | nil => exact .inl ⟨rfl, rfl, by simp [nextUp, he, hb]⟩
    | cons a later => exact .inr (.inr ⟨a, later, rfl, by simp [nextUp, he, hb], by simp⟩)
  | some t =>
    cases hb : s.inbox with
    | nil => exact .inr (.inl ⟨t, rfl, by simp [nextUp, he, hb], by simp⟩)
    | cons a later =>
      by_cases h : interval s.config.tw a.time s.clk < interval s.config.tw t s.clk ∨
          (interval s.config.tw a.time s.clk = interval s.config.tw t s.clk ∧ a.beforeTx = true)
      · refine .inr (.inr ⟨a, later, rfl, ?_, ?_⟩)
        · simp only [nextUp, he, hb, h, if_true]
        · intro t' ht; cases ht; exact h
      · refine .inr (.inl ⟨t, rfl, ?_, ?_⟩)
        · simp only [nextUp, he, hb, h, if_false]
        · intro a' later' hl
          cases hl
          rw [not_or, not_and_or, Bool.not_eq_true] at h
          rcases Nat.lt_or_ge (interval s.config.tw t s.clk) (interval s.config.tw a.time s.clk) with h1 | h1
          · exact .inl h1
          · exact .inr ⟨by omega, by rcases h.2 with h2 | h2; · omega
                                     · exact h2⟩

/-- All that a step can do. -/
theorem step_cases (s : State) :
    (segmentEnd s.config.tw s.encoder = none ∧ s.inbox = [] ∧ step s = .next s.quiet) ∨
    (∃ t, segmentEnd s.config.tw s.encoder = some t ∧ step s = .next (txAdvance t (s.quiet.atClock t))) ∨
    (∃ a later, s.inbox = a :: later ∧ step s = runStimulus a.what (s.quiet.takeArrival a later)) := by
  rcases nextUp_cases s.quiet with ⟨he, hi, hn⟩ | ⟨t, ht, hn, -⟩ | ⟨a, later, hi, hn, -⟩
  · exact .inl ⟨he, hi, by simp only [step, hn]⟩
  · obtain ⟨len, -, -, -, -, hw, -, hdue⟩ := segmentEnd_eq_some ht
    have hnow : (s.quiet.atClock t).now = t := by rw [now_atClock, hw, wrap_wrap]
    refine .inr (.inl ⟨t, ht, ?_⟩)
    simp only [step, hn, exec, execTxStep, hnow]
    exact if_pos hdue
  · exact .inr (.inr ⟨a, later, hi, by simp only [step, hn]⟩)

end Sys2Proof.Machine
end

