-- ==== Sys2Proof/Laws/PerInstr.lean ====
section
/-!
SUPPORT. Statements about the instruction as syntax, one lemma for each constructor of `Instr`.
-/

namespace Sys2Proof.Laws.FormatKept

/-- The encoder writes an instruction in the format its row of spec/opcode_table.json names. -/
def Statement (i : Instr) : Prop := (encode i).format = i.format

theorem nop : Statement .nop := rfl

theorem enable : Statement .enable := rfl

theorem disable : Statement .disable := rfl

theorem setMinRepeats (v : BitVec 8) : Statement (.setMinRepeats v) := rfl

theorem cbDone : Statement .cbDone := rfl

theorem readState : Statement .readState := rfl

theorem sendTelegram (word : Word) : Statement (.sendTelegram word) := rfl

theorem sendCode (word : Word) : Statement (.sendCode word) := rfl

theorem encodeTelegram (symv : BitVec 24) (periodMicros repeatLog2 : Word) :
    Statement (.encodeTelegram symv periodMicros repeatLog2) := rfl

theorem unpackTelegram (word : Word) : Statement (.unpackTelegram word) := rfl

theorem codeToSymbols (code : BitVec 20) : Statement (.codeToSymbols code) := rfl

theorem isSameCode (a b : Word) : Statement (.isSameCode a b) := rfl

theorem getTelegram (tuple periodMicros repeatLog2 : Word) :
    Statement (.getTelegram tuple periodMicros repeatLog2) := rfl

theorem reset : Statement .reset := rfl

theorem edge (now : Stamp) : Statement (.edge now) := rfl

theorem reservedF : Statement .reservedF := rfl

theorem txStep : Statement .txStep := rfl

theorem getKaku (on : Bool) (address : BitVec 8) (device : BitVec 16) (periodMicros repeatLog2 : Word) :
    Statement (.getKaku on address device periodMicros repeatLog2) := rfl

theorem getKakuGroup (on : Bool) (group : BitVec 4) (address : BitVec 8) (device : BitVec 16) (periodMicros repeatLog2 : Word) :
    Statement (.getKakuGroup on group address device periodMicros repeatLog2) := rfl

theorem getAction (on : Bool) (systemCode : BitVec 5) (device : BitVec 8) (periodMicros repeatLog2 : Word) :
    Statement (.getAction on systemCode device periodMicros repeatLog2) := rfl

theorem getBlokker (on : Bool) (device : BitVec 16) (periodMicros repeatLog2 : Word) :
    Statement (.getBlokker on device periodMicros repeatLog2) := rfl

theorem getElro (on : Bool) (systemCode : BitVec 5) (device : BitVec 8) (periodMicros repeatLog2 : Word) :
    Statement (.getElro on systemCode device periodMicros repeatLog2) := rfl

theorem telegramWord (periodMicros : BitVec 9) (repeatLog2 : BitVec 3) (code : BitVec 20) :
    Statement (.telegramWord periodMicros repeatLog2 code) := rfl

theorem symLow : Statement .symLow := rfl

theorem symHigh : Statement .symHigh := rfl

theorem symFloat : Statement .symFloat := rfl

theorem symReserved : Statement .symReserved := rfl

theorem symv (v : BitVec 24) : Statement (.symv v) := rfl

theorem rxTrit0 : Statement .rxTrit0 := rfl

theorem rxTrit1 : Statement .rxTrit1 := rfl

theorem rxTrit2 : Statement .rxTrit2 := rfl

theorem rxIllegal (pattern : BitVec 4) : Statement (.rxIllegal pattern) := rfl

theorem rxSync : Statement .rxSync := rfl

theorem txSym0 : Statement .txSym0 := rfl

theorem txSym1 : Statement .txSym1 := rfl

theorem txSym2 : Statement .txSym2 := rfl

theorem txSync : Statement .txSync := rfl

end Sys2Proof.Laws.FormatKept
end

