-- ==== Sys2Proof/Tests/Slice0.lean ====
section
/-!
SUPPORT. Tests. Expected results are the spec's own: the tables of 30_encoding.md and spec/opcode_table.json, the
vectors of 95_test_vectors.md (named in brackets). After them, for every obligation with hypotheses, states and
operands that meet them, one conjunct for each clause, at the boundary values of its range.
-/

namespace Sys2Proof.Tests

open Sys2Proof.Machine Sys2Proof.Safety Sys2Proof.Claims

/-! ## Small states -/

/-- The next state, if there is one. -/
def next (r : Host.Outcome State Fault Refusal) : Option State :=
  match r with
  | .next s => some s
  | .fault _ => none
  | .refused _ => none

/-- A decoder in a given state with the bands of the period `p`, its window at `t0`, `t2`, `t2`. -/
def decoderAt (st : SeqState) (p t0 t2 : Nat) : Decoder :=
  { Decoder.reset with
    state := st
    period := p
    min1Period := p * 4 / 10
    max1Period := p * 16 / 10
    min3Period := p * 23 / 10
    max3Period := p * 37 / 10
    t0 := t0
    t1 := t2
    t2 := t2 }

/-- The reset machine with that decoder. -/
def machineAt (st : SeqState) (p t0 t2 : Nat) : State := { State.reset with decoder := decoderAt st p t0 t2 }

/-- The reset machine with a transmission of `word` started at clock value 1000, `rep`, `sym`, `seg` given, the
segment in progress begun at 1000. -/
def sendingAt (word : Word) (rep : BitVec 8) (sym : BitVec 4) (seg : BitVec 2) : State :=
  { State.reset with
    clk := 1000
    enabled := false
    encoder := { startWord word true 1000 with txRep := rep, txSym := sym, txSeg := seg, txLevel := segLevel seg } }

/-- The reset machine with a clock of another width. -/
def machineWith (tw : Nat) : State := State.resetWith { defaultConfiguration with tw := tw }

/-- The vector `K` of 95_test_vectors.md. -/
def symvK : BitVec 24 := 0x80202A#24

/-! ## WellFormed refuses -/

theorem test_wellFormed_refuses_legal_patterns :
    (Instr.rxIllegal 0b0101#4).wellFormed = false ∧ (Instr.rxIllegal 0b1010#4).wellFormed = false ∧
    (Instr.rxIllegal 0b0110#4).wellFormed = false := by decide

theorem test_wellFormed_accepts_illegal_patterns :
    ∀ p ∈ [0b0000#4, 0b0001#4, 0b0010#4, 0b0011#4, 0b0100#4, 0b0111#4, 0b1000#4, 0b1001#4, 0b1011#4, 0b1100#4,
      0b1101#4, 0b1110#4, 0b1111#4], (Instr.rxIllegal p).wellFormed = true := by decide

theorem test_wellFormed_refuses_wide_timestamp :
    (Instr.edge (2 ^ 32)).wellFormed = false ∧ (Instr.edge (2 ^ 32 - 1)).wellFormed = true := by decide

/-! ## Every constructor's decoding, from words written out from the tables -/

theorem test_decode_nop : decodeTableWord 8 0x0 = some .nop := by decide
theorem test_decode_enable : decodeTableWord 8 0x1 = some .enable := by decide
theorem test_decode_disable : decodeTableWord 8 0x2 = some .disable := by decide
/-- `a[7:0]` only (K-MIN-2). -/
theorem test_decode_setMinRepeats :
    decode (.op ⟨0x3#4, 0x000001FF#32, 0, 0⟩) = .ok (.setMinRepeats 255#8) := by decide
theorem test_decode_cbDone : decodeTableWord 8 0x4 = some .cbDone := by decide
theorem test_decode_readState : decodeTableWord 8 0x5 = some .readState := by decide
theorem test_decode_sendTelegram :
    decode (.op ⟨0x6#4, 0xBBA56DC2#32, 0, 0⟩) = .ok (.sendTelegram 0xBBA56DC2#32) := by decide
theorem test_decode_sendCode :
    decode (.op ⟨0x7#4, 0x64018F38#32, 0, 0⟩) = .ok (.sendCode 0x64018F38#32) := by decide
theorem test_decode_encodeTelegram :
    decode (.op ⟨0x8#4, 0xFF80202A#32, 375, 2⟩) = .ok (.encodeTelegram 0x80202A#24 375 2) := by decide
theorem test_decode_unpackTelegram :
    decode (.op ⟨0x9#4, 0x5F418F38#32, 0, 0⟩) = .ok (.unpackTelegram 0x5F418F38#32) := by decide
/-- C-SYM-12: bits 31:20 are ignored. -/
theorem test_decode_codeToSymbols :
    decode (.op ⟨0xA#4, 0xFFF00001#32, 0, 0⟩) = .ok (.codeToSymbols 1#20) := by decide
theorem test_decode_isSameCode :
    decode (.op ⟨0xB#4, 0xBBA56DC2#32, 0x00056DC2#32, 0⟩) = .ok (.isSameCode 0xBBA56DC2#32 0x00056DC2#32) := by decide
theorem test_decode_getTelegram :
    decode (.op ⟨0xC#4, 0x00034204#32, 0x177#32, 2⟩) = .ok (.getTelegram 0x00034204#32 375 2) := by decide
theorem test_decode_reset : decodeTableWord 8 0xD = some .reset := by decide
theorem test_decode_edge : decode (.op ⟨0xE#4, 26300, 0, 0⟩) = .ok (.edge 26300) := by decide
theorem test_decode_reservedF : decodeTableWord 8 0xF = some .reservedF := by decide
theorem test_decode_txStep : decode .internal = .ok .txStep := by decide
/-- C-GET-1: `KaKu('B', 3, on)`. -/
theorem test_decode_getKaku :
    decode (.tuple 0x00034204#32 375 2) = .ok (.getKaku true 66#8 3#16 375 2) := by decide
/-- C-GET-6: `KaKu('B', group 2, 3, on)`. -/
theorem test_decode_getKakuGroup :
    decode (.tuple 0x0003422C#32 375 2) = .ok (.getKakuGroup true 2#4 66#8 3#16 375 2) := by decide
/-- C-GET-9: `Action(31, 'A', on)`. -/
theorem test_decode_getAction :
    decode (.tuple 0x00411F05#32 375 2) = .ok (.getAction true 31#5 65#8 375 2) := by decide
/-- C-GET-16: `Blokker(3, on)`. -/
theorem test_decode_getBlokker :
    decode (.tuple 0x00030006#32 375 2) = .ok (.getBlokker true 3#16 375 2) := by decide
/-- C-GET-20: `Elro(0b10110, 'C', on)`. -/
theorem test_decode_getElro :
    decode (.tuple 0x00431607#32 375 2) = .ok (.getElro true 0b10110#5 67#8 375 2) := by decide
/-- C-UNP-4. -/
theorem test_decode_telegramWord :
    decode (.tw32 0x5F418F38#32) = .ok (.telegramWord 190#9 4#3 102200#20) := by decide
theorem test_decode_symLow : decode (.sym 0b00#2) = .ok .symLow := by decide
theorem test_decode_symHigh : decode (.sym 0b01#2) = .ok .symHigh := by decide
theorem test_decode_symFloat : decode (.sym 0b10#2) = .ok .symFloat := by decide
theorem test_decode_symReserved : decode (.sym 0b11#2) = .ok .symReserved := by decide
theorem test_decode_symv : decode (.symv24 0b000110000110000110000110#24) = .ok (.symv 0x186186#24) := by decide
theorem test_decode_rxTrit0 : decode (.air4 0b0101#4) = .ok .rxTrit0 := by decide
theorem test_decode_rxTrit1 : decode (.air4 0b1010#4) = .ok .rxTrit1 := by decide
theorem test_decode_rxTrit2 : decode (.air4 0b0110#4) = .ok .rxTrit2 := by decide
theorem test_decode_rxIllegal : decode (.air4 0b1001#4) = .ok (.rxIllegal 0b1001#4) := by decide
theorem test_decode_rxSync : decode .airsync = .ok .rxSync := by decide
theorem test_decode_txSym0 : decodeTableWord 8 0b10001000 = some .txSym0 := by decide
theorem test_decode_txSym1 : decodeTableWord 8 0b11101110 = some .txSym1 := by decide
theorem test_decode_txSym2 : decodeTableWord 8 0b10001110 = some .txSym2 := by decide
theorem test_decode_txSync : decodeTableWord 32 0b10000000000000000000000000000000 = some .txSync := by decide
/-- A line pattern the encoder never sends (rule R61). -/
theorem test_decode_refuses_line_pattern :
    decode (.line8 0b11110000#8) = .error .linePattern8 ∧ decode (.line32 0xC0000000#32) = .error .linePattern32 := by
  decide

/-! ## Instructions, one step each -/

theorem test_step_nop : next (step (State.reset.withFetchWord 8 0x0)) = some State.reset := by decide
/-- K-EN-1. -/
theorem test_enable : (next (exec .enable { State.reset with enabled := false })) = some State.reset := by decide
/-- K-DIS-1. -/
theorem test_disable : (next (exec .disable (machineAt (.symbol 17) 200 0 0))).map (fun s => (s.enabled, s.decoder.state)) =
    some (false, .symbol 17) := by decide
/-- K-MIN-1. -/
theorem test_setMinRepeats : (next (exec (.setMinRepeats 2) State.reset)).map (·.decoder.minRepeats) = some 2 := by decide
/-- K-CB-1. -/
theorem test_cbDone :
    (next (exec .cbDone { State.reset with decoder := { Decoder.reset with inCallback := true } })) = some State.reset := by
  decide
/-- K-RD-3. -/
theorem test_readState_reset : (next (exec .readState State.reset)).map (·.result) =
    some (.record [0x000002FF, 0, 0, 0, 0, 0, 0, 0, 0, 0, 0, 0]) := by decide
/-- K-RD-1: the end state of D-REP-1 before `CB_DONE`. -/
theorem test_readState_after_event :
    (next (exec .readState { State.reset with decoder := { decoderAt .syncWait 200 51700 51900 with
      receivedBit := 6, receivedCode := 102200, previousCode := 102200, repeats := 1, inCallback := true
      t1 := 51700 } })).map (·.result) =
    some (.record [0x010606FF, 0, 200, 80, 320, 460, 740, 102200, 102200, 51700, 51700, 51900]) := by decide
/-- E-SEQ-2: the registers right after the operation. -/
theorem test_sendTelegram : (next (exec (.sendTelegram 0x64118F38#32) { State.reset with clk := 1000 })).map
    (fun s => (s.enabled, s.encoder)) = some (false, {
      txLevel := true, txBusy := true, txPeriod := 200, txSymbols := 0x186186, txRepeats := 2, txRep := 0, txSym := 0
      txSeg := 0, txRestore := true, txSegStart := 1000 }) := by decide
/-- E-REF-1: `periodMicros` is 0. -/
theorem test_sendTelegram_refused : next (exec (.sendTelegram 0x00056DC2#32) State.reset) = some State.reset := by decide
/-- E-CODE-1, and `enabled` untouched (E-EN-2). -/
theorem test_sendCode : (next (exec (.sendCode 0x64081BF1#32) { State.reset with enabled := false })).map
    (fun s => (s.enabled, s.encoder.txSymbols, s.encoder.txRepeats)) = some (false, 0x000000#24, 1#8) := by decide
/-- C-ENC-1. -/
theorem test_encodeTelegram : (next (exec (.encodeTelegram symvK 375 2) State.reset)).map (·.result) =
    some (.word 0xBBA56DC2#32) := by decide
/-- C-ENC-8: the repeat operand spills into the period. -/
theorem test_encodeTelegram_spills : (next (exec (.encodeTelegram 0#24 2 9) State.reset)).map (·.result) =
    some (.word 0x01900000#32) := by decide
/-- C-UNP-2. -/
theorem test_unpackTelegram : (next (exec (.unpackTelegram 0xFFF81BF0#32) State.reset)).map (·.result) =
    some (.fields 511 7 531440) := by decide
/-- C-SYM-8. -/
theorem test_codeToSymbols : (next (exec (.codeToSymbols 355778#20) State.reset)).map (·.result) =
    some (.word 0x80202A#32) := by decide
/-- C-SYM-11: `F F F 0 F 1 1 0 1 0 1 0`. -/
theorem test_codeToSymbols_reduces : (next (exec (.codeToSymbols 0xFFFFF#20) State.reset)).map (·.result) =
    some (.word (0b101010001001010001000100#24).toNat) := by decide
/-- C-SAME-2. -/
theorem test_isSameCode : (next (exec (.isSameCode 0xBBA56DC2#32 0x64056DC2#32) State.reset)).map (·.result) =
    some (.word 1#32) := by decide
/-- C-SAME-6. -/
theorem test_isSameCode_bit19 : (next (exec (.isSameCode 0x000FFFFF#32 0x0007FFFF#32) State.reset)).map (·.result) =
    some (.word 0#32) := by decide
/-- C-GET-8: number 0 wraps. -/
theorem test_getTelegram : (next (exec (.getTelegram 0x00004104#32 375 2) State.reset)).map (·.result) =
    some (.word 0xBBA0196A#32) := by decide
/-- C-GET-1. -/
theorem test_getKaku : (next (exec (.getKaku true 66 3 375 2) State.reset)).map (·.result) =
    some (.word 0xBBA56DC2#32) := by decide
/-- C-GET-6. -/
theorem test_getKakuGroup : (next (exec (.getKakuGroup true 2 66 3 375 2) State.reset)).map (·.result) =
    some (.word 0xBBA56FA8#32) := by decide
/-- C-GET-12. -/
theorem test_getAction : (next (exec (.getAction false 0b10110 67 375 2) State.reset)).map (·.result) =
    some (.word 0xBBA6DF31#32) := by decide
/-- C-GET-16. -/
theorem test_getBlokker : (next (exec (.getBlokker true 3 375 2) State.reset)).map (·.result) =
    some (.word 0xBBA10065#32) := by decide
/-- C-GET-20. -/
theorem test_getElro : (next (exec (.getElro true 0b10110 67 375 2) State.reset)).map (·.result) =
    some (.word 0xBBA5A31A#32) := by decide
/-- E-RST-1 and K-RST-1. -/
theorem test_reset : (next (exec .reset { sendingAt 0x64118F38#32 0 5 2 with decoder := decoderAt (.symbol 3) 200 9 9 })).map
    (fun s => (s.decoder, s.encoder, s.enabled)) = some (Decoder.reset, Encoder.reset, true) := by decide
/-- D-SYNC-4: 3751 gives the period 121 and its bands. -/
theorem test_edge_sync : (next (exec (.edge 5051) (machineAt .syncWait 0 1100 4851))).map
    (fun s => (s.decoder.state, s.decoder.period, s.decoder.min1Period, s.decoder.max1Period, s.decoder.min3Period,
      s.decoder.max3Period)) = some (.symbol 0, 121, 48, 193, 278, 447) := by decide
/-- D-NOISE-1, edge 58: discarded, the window moves. -/
theorem test_edge_glitch : (next (exec (.edge 28430) (machineAt (.symbol 5) 200 28300 28400))).map
    (fun s => (s.decoder.state, s.decoder.skip, s.decoder.t0, s.decoder.t1, s.decoder.t2)) =
    some (.symbol 5, true, 28300, 28400, 28430) := by decide
/-- K-RSV-1. -/
theorem test_reservedF : next (step (State.reset.withFetchWord 8 0xF)) = some State.reset := by decide
/-- E-SEQ-4: the end of the gap of frame 1 of 2. -/
theorem test_txStep : (next (exec .txStep { sendingAt 0x64118F38#32 0 12 1 with clk := 7200 })).map
    (fun s => (s.encoder.txRep, s.encoder.txSym, s.encoder.txSeg, s.tx, s.encoder.txSegStart)) =
    some (1, 0, 0, true, 7200) := by decide
/-- E-SEQ-2: the last step. -/
theorem test_txStep_last : (next (exec .txStep { sendingAt 0x64118F38#32 1 12 1 with clk := 7200 })).map
    (fun s => (s.txBusyPort, s.tx, s.enabled, s.encoder.txRestore)) = some (false, false, true, false) := by decide
/-- C-UNP-4. -/
theorem test_telegramWord : (next (exec (.telegramWord 190 4 102200) State.reset)).map (·.result) =
    some (.word 0x5F418F38#32) := by decide
theorem test_symLow : (next (exec .symLow State.reset)).map (·.result) = some (.word 0#32) := by decide
theorem test_symHigh : (next (exec .symHigh State.reset)).map (·.result) = some (.word 1#32) := by decide
theorem test_symFloat : (next (exec .symFloat State.reset)).map (·.result) = some (.word 2#32) := by decide
theorem test_symReserved : next (exec .symReserved State.reset) = some State.reset := by decide
theorem test_symv : (next (exec (.symv symvK) State.reset)).map (·.result) = some (.word 0x0080202A#32) := by decide
/-- C-ENC-12's vector. -/
theorem test_symv_reserved : next (exec (.symv 0xC00000#24) State.reset) = some State.reset := by decide
theorem test_rxTrit0 : (next (exec .rxTrit0 { machineAt (.symbol 44) 200 0 0 with
      decoder := { decoderAt (.symbol 44) 200 0 0 with receivedCode := 34066 } })).map
    (fun s => (s.decoder.state, s.decoder.receivedCode)) = some (.finalSync1, 102198) := by decide
theorem test_rxTrit1 : (next (exec .rxTrit1 { machineAt (.symbol 4) 200 0 0 with
      decoder := { decoderAt (.symbol 4) 200 0 0 with receivedCode := 15 } })).map
    (fun s => (s.decoder.state, s.decoder.receivedCode)) = some (.symbol 8, 46) := by decide
/-- The last symbol of `A` (41_decoder.md; accumulation under D-REP-9). -/
theorem test_rxTrit2 : (next (exec .rxTrit2 { machineAt (.symbol 44) 200 0 0 with
      decoder := { decoderAt (.symbol 44) 200 0 0 with receivedCode := 34066 } })).map
    (fun s => (s.decoder.state, s.decoder.receivedCode)) = some (.finalSync1, 102200) := by decide
/-- D-PAT-1: `1100` in symbol 4. -/
theorem test_rxIllegal : (next (exec (.rxIllegal 0b1100) (machineAt (.symbol 16) 200 0 0))).map
    (fun s => (s.decoder.state, s.decoder.receivedBit)) = some (.syncWait, 0b1100) := by decide
/-- D-REP-1, the last two edges. -/
theorem test_rxSync : (next (exec .rxSync { State.reset with
      decoder := { decoderAt .finalSync1 200 0 0 with receivedCode := 102200 } })).map
    (fun s => (s.decoded, s.decoder.state, s.decoder.repeats, s.decoder.inCallback)) =
    some (some ⟨102200, 200⟩, .syncWait, 1, true) := by decide
/-- E-SEQ-1: symbol 0 of `A` lasts 1600. -/
theorem test_txSym0 : (next (exec .txSym0 (sendingAt 0x64018F38#32 0 0 0))).map
    (fun s => (s.clk, s.encoder.txSym, s.tx)) = some (2600, 1, true) := by decide
theorem test_txSym1 : (next (exec .txSym1 (sendingAt 0x64018F38#32 0 1 0))).map
    (fun s => (s.clk, s.encoder.txSym, s.tx)) = some (2600, 2, true) := by decide
theorem test_txSym2 : (next (exec .txSym2 (sendingAt 0x64018F38#32 0 11 0))).map
    (fun s => (s.clk, s.encoder.txSym, s.tx)) = some (2600, 12, true) := by decide
theorem test_txSync : (next (exec .txSync (sendingAt 0x64018F38#32 0 12 0))).map
    (fun s => (s.clk, s.txBusyPort, s.enabled)) = some (7400, false, true) := by decide
/-- X-2: an edge at the instant of the last `TX_STEP`, before it. -/
theorem test_step_arrival_first :
    (next (step { sendingAt 0x64018F38#32 0 12 1 with inbox := [⟨7200, true, .rxEdge⟩] })).map
      (fun s => (s.decoder.t2, s.txBusyPort)) = some (0, true) := by decide
/-- R4, R12: the clock of 16 bits shows 65536 + 7 as 7, and an edge samples that. -/
theorem test_step_rxEdge_samples_clock :
    (next (step { machineWith 16 with inbox := [⟨65543, true, .rxEdge⟩] })).map
      (fun s => (s.decoder.t2, s.clk)) = some (7, 7) := by decide
/-- R2, R90: another layout gives another telegram. -/
theorem test_getBlokker_other_layout :
    (next (exec (.getBlokker true 3 0 0) (State.resetWith { defaultConfiguration with
      layouts := { defaultLayouts with blokker := layoutOf fun _ => .compare .device 65535 3 .high .low .low } }))).map
      (·.result) = some (.word 265720#32) := by decide
/-- R90 (c), (e): a one-hot layout on the low three bits of the device; for letter K those are 2, as for C. Every symbol
is 2 but symbol 2: 531440 - 2 * 3^9. -/
theorem test_getAction_low_bits_layout :
    (next (exec (.getAction true 0 75 0 0) (State.resetWith { defaultConfiguration with
      layouts := { defaultLayouts with action := layoutOf fun i => .compare .device 7 i .float .low .float } }))).map
      (·.result) = some (.word 492074#32) := by decide

/-! ## Hypotheses are met -/

theorem witness_DecodeOfEncodeIsInstruction :
    (Instr.rxIllegal 0b1111#4).WellFormed ∧ (Instr.edge 4294967295).WellFormed ∧ Instr.nop.WellFormed := by decide

theorem witness_DecodedWordIsRecovered :
    decode (.air4 0b0101#4) = .ok .rxTrit0 ∧ (Encoded.air4 0b0101#4).format ≠ .op ∧
    (Encoded.air4 0b0101#4).format ≠ .tuple := by decide

theorem witness_EncodeTelegramPacksFields :
    AllTrits 0xAAAAAA#24 ∧ (511#32).toNat ≤ 511 ∧ (7#32).toNat ≤ 7 ∧ ¬ AllTrits 0xC00000#24 := by decide

theorem witness_CodeToSymbolsGivesBase3Digits :
    (531440#20).toNat < 531441 ∧ (531441#20).toNat % 531441 = (0#20).toNat % 531441 := by decide

theorem witness_CodecRoundTrip : AllTrits symvK ∧ (375#32).toNat ≤ 511 ∧ (2#32).toNat ≤ 7 := by decide

theorem witness_GetTelegramIsPureAndWellFormed : State.reset.config.layouts = defaultLayouts := rfl

theorem witness_AnyLayoutsGiveWellFormedTelegrams :
    (511#32).toNat ≤ 511 ∧ (7#32).toNat ≤ 7 ∧
    (tupleSymbols State.reset.config.layouts 0x00034204#32)[11]? = some .float := by decide

theorem witness_KaKuSymbolsByDefaultLayout : State.reset.config.layouts = defaultLayouts := rfl

theorem witness_OtherFormsSymbolsByDefaultLayout : State.reset.config.layouts = defaultLayouts := rfl

theorem witness_KaKuGroupSplitsDeviceNumber :
    State.reset.config.layouts = defaultLayouts ∧ (3 : Nat) < 4 ∧ (0 : Nat) < 4 := by decide

theorem witness_EdgeWhileDisabledChangesNothing : ({ State.reset with enabled := false } : State).enabled = false := by
  decide

/-- A machine about to skip an edge. -/
def skipping : State :=
  { State.reset with decoder := { decoderAt (.symbol 5) 200 28300 28430 with skip := true } }

theorem witness_SkippedEdgeOnlyMovesWindow : skipping.enabled = true ∧ skipping.decoder.skip = true := by decide

/-- 79 is shorter than 80. -/
theorem witness_ShortGlitchIsDiscarded :
    let s := machineAt (.symbol 5) 200 28300 28400;
    s.enabled = true ∧ s.decoder.skip = false ∧ s.decoder.state ≠ .syncWait ∧
    interval 32 28479 s.decoder.t2 < s.decoder.min1Period := by decide

/-- D-SYNC-1 and D-SYNC-2: 3720 and 3721. -/
theorem witness_SyncGapGivesPeriodAndBands :
    (let s := machineAt .syncWait 0 1100 4820;
      s.enabled = true ∧ s.decoder.skip = false ∧ s.decoder.state = .syncWait ∧ duration s ≤ 3720) ∧
    (let s := machineAt .syncWait 0 1100 4821;
      s.enabled = true ∧ s.decoder.skip = false ∧ s.decoder.state = .syncWait ∧ 3720 < duration s) := by
  decide

/-- D-CLS-3 to D-CLS-9: 320; 460 and 740; 321, 459 and 741. -/
theorem witness_IntervalIsClassified :
    (let s := machineAt (.symbol 0) 200 1000 1320;
      Consumes 2000 s ∧ duration s ≤ s.decoder.max1Period) ∧
    (∀ d ∈ [460, 740], let s := machineAt (.symbol 1) 200 1000 (1000 + d);
      Consumes 2000 s ∧ s.decoder.max1Period < duration s ∧
      s.decoder.min3Period ≤ duration s ∧ duration s ≤ s.decoder.max3Period) ∧
    ∀ d ∈ [321, 459, 741], let s := machineAt (.symbol 46) 200 1000 (1000 + d);
      Consumes 2000 s ∧ s.decoder.max1Period < duration s ∧
      (duration s < s.decoder.min3Period ∨ s.decoder.max3Period < duration s) := by
  decide

/-- A machine in the fourth sub-state of symbol `k` with the first three intervals received. -/
def fourthAt (k : Nat) (h : k < 12) (bits : BitVec 4) (d : Nat) : State :=
  { State.reset with decoder := { decoderAt (.symbol ⟨4 * k + 3, by omega⟩) 200 1000 (1000 + d) with receivedBit := bits } }

theorem witness_FourthIntervalValidatesSymbol :
    (∀ d ∈ [321, 741], let s := fourthAt 0 (by omega) 0b010 d;
      Consumes 2000 s ∧ s.decoder.max1Period < duration s ∧
      (duration s < s.decoder.min3Period ∨ s.decoder.max3Period < duration s)) ∧
    (∀ d ∈ [460, 740], let s := fourthAt 11 (by omega) 0b010 d;
      Consumes 2000 s ∧ s.decoder.max1Period < duration s ∧
      s.decoder.min3Period ≤ duration s ∧ duration s ≤ s.decoder.max3Period ∧
      (s.decoder.receivedBit <<< 1 ||| 1#4) = 0b0101#4) ∧
    (∀ b ∈ [0b101#4, 0b011#4, 0b110#4], let s := fourthAt 11 (by omega) b 320;
      Consumes 2000 s ∧ duration s ≤ s.decoder.max1Period ∧
      (s.decoder.receivedBit <<< 1 ||| 0#4) ∈ [0b1010#4, 0b0110#4, 0b1100#4]) := by
  decide

/-- D-TERM-1 and D-TERM-2: 320 and 321. -/
theorem witness_FinalSyncNeedsShortInterval :
    ∀ d ∈ [320, 321], let s := machineAt .finalSync1 200 1000 (1000 + d);
      s.decoder.state = .finalSync1 ∧ Consumes 2000 s := by decide

/-- D-TERM-3 and D-TERM-6: 4999 and 7201. -/
theorem witness_TerminalGapOutOfRangeAborts :
    ∀ d ∈ [4999, 7201], let s := machineAt .finalSync2 200 1000 (1000 + d);
      s.decoder.state = .finalSync2 ∧ Consumes 9000 s ∧
      (duration s < 25 * s.decoder.period ∨ 36 * s.decoder.period < duration s) := by
  decide

/-- A machine with a candidate, a threshold and the guard. -/
def candidateAt (st : SeqState) (d : Nat) (least : BitVec 8) (busy : Bool) : State :=
  { State.reset with decoder := { decoderAt st 200 1000 (1000 + d) with
      receivedCode := 102200, previousCode := 102200, repeats := 1, minRepeats := least, inCallback := busy } }

/-- D-TERM-4 and D-TERM-5: 5000 and 7200; the count 2 against the thresholds 2 and 3. -/
theorem witness_CandidateIsCountedAndDelivered :
    ∀ d ∈ [5000, 7200],
      (let s := candidateAt .finalSync2 d 2 false;
        Consumes 9000 s ∧ 25 * s.decoder.period ≤ duration s ∧
        duration s ≤ 36 * s.decoder.period ∧ s.decoder.receivedCode = s.decoder.previousCode ∧
        s.decoder.minRepeats.toNat ≤ (s.decoder.repeats + 1#8).toNat ∧ s.decoder.inCallback = false) ∧
      (let s := candidateAt .finalSync2 d 2 true;
        Consumes 9000 s ∧ s.decoder.minRepeats.toNat ≤ (s.decoder.repeats + 1#8).toNat ∧
        s.decoder.inCallback = true) ∧
      (let s := candidateAt .finalSync2 d 3 false;
        Consumes 9000 s ∧ (s.decoder.repeats + 1#8).toNat < s.decoder.minRepeats.toNat) := by
  decide

theorem witness_EdgeFrameAndEventSource :
    let s := candidateAt .finalSync2 5000 2 false;
    s.decoded = none ∧ (next (exec (.edge 9000) s)).map (·.decoded) = some (some ⟨102200, 200⟩) := by decide

theorem witness_EdgeTransitionsAreTheTable :
    (next (exec (.edge 9000) (candidateAt .finalSync2 5000 3 false))).isSome = true := by decide

theorem witness_EdgeDependsOnDecoderAlone :
    let s := machineAt (.symbol 0) 200 1000 1200;
    let s' := { s with encoder := startWord 0x64018F38#32 false 7, clk := 9 };
    s.config.tw = s'.config.tw ∧ s.decoder = s'.decoder ∧ s.enabled = s'.enabled ∧ s.decoded = none ∧ s'.decoded = none := by decide

/-- D-NOISE-2: a pulse of 79. -/
theorem witness_GlitchVanishesFromDurations :
    let s := machineAt (.symbol 5) 200 28300 28400;
    s.enabled = true ∧ s.decoder.skip = false ∧ s.decoder.state ≠ .syncWait ∧
    interval 32 28479 s.decoder.t2 < s.decoder.min1Period ∧
    s.decoder.min1Period ≤ interval 32 28580 28500 := by decide

theorem witness_MinRepeatsZeroActsAsOne : RepeatsHaveRoom (candidateAt .finalSync2 5000 0 false).decoder := by decide

theorem witness_FirstEdgeTimeCountsAsInterval : 3721 = (2 ^ 32 + 3721) % 2 ^ defaultConfiguration.tw ∧ 3720 < 3721 := by
  decide

theorem witness_ReceivedPatternAppendsTrit :
    ∀ k ∈ [(0 : Fin 12), 11], let s := machineAt (symbolStart k) 200 0 0;
      s.enabled = true ∧ s.decoder.skip = false ∧ s.decoder.state = symbolStart k ∧
      (0b1111#4 ≠ 0b0101#4 ∧ 0b1111#4 ≠ 0b1010#4 ∧ 0b1111#4 ≠ 0b0110#4) := by decide

theorem witness_ReceivedSyncCompletesCandidate :
    (let s := candidateAt .finalSync1 200 2 false;
      s.enabled = true ∧ s.decoder.skip = false ∧ s.decoder.receivedCode = s.decoder.previousCode ∧
      s.decoder.minRepeats.toNat ≤ (s.decoder.repeats + 1#8).toNat ∧ s.decoder.inCallback = false) ∧
    (let s := candidateAt .finalSync1 200 2 true;
      s.enabled = true ∧ s.decoder.minRepeats.toNat ≤ (s.decoder.repeats + 1#8).toNat ∧
      s.decoder.inCallback = true) ∧
    (let s := candidateAt .finalSync1 200 3 false;
      s.enabled = true ∧ (s.decoder.repeats + 1#8).toNat < s.decoder.minRepeats.toNat) ∧
    (let s := candidateAt .finalSync2 200 2 false; s.enabled = true ∧ s.decoder.skip = false) ∧
    ∀ n ∈ [(0 : Fin 48), 3, 46, 47], let s := machineAt (.symbol n) 200 0 0;
      s.enabled = true ∧ s.decoder.skip = false ∧ s.decoder.state = .symbol n := by
  decide

theorem witness_ReceptionRowsNeedListeningDecoder :
    ({ machineAt (.symbol 0) 200 0 0 with enabled := false } : State).enabled = false ∧
    skipping.decoder.skip = true ∧ State.reset.decoder.state = .syncWait := by decide

theorem witness_TwelveReceivedSymbolsGiveCode :
    let ts := [Trit.low, .high, .float, .low, .high, .float, .low, .high, .float, .low, .high, .float];
    let s := machineAt (.symbol 0) 200 0 0;
    ts.length = 12 ∧ s.enabled = true ∧ s.decoder.skip = false ∧ s.decoder.state = .symbol 0 ∧
    s.decoder.receivedCode = 0#32 := by decide

theorem witness_SentSegmentsClassifyAsReceivedPatterns :
    ∀ p ∈ [1, 511, 138547332], let d := decoderAt (.symbol 0) p 0 0;
      1 ≤ p ∧ d.period = p ∧ BandsFollowPeriod d ∧
      (decoderAt .finalSync1 p 0 0).state = .finalSync1 ∧ (decoderAt .finalSync2 p 0 0).state = .finalSync2 := by
  decide

/-- The least and the greatest period. -/
theorem witness_TimedFrameIsDecoded :
    ∀ p ∈ [121, 511], let s := machineAt .syncWait 0 (100000 - 31 * p - 3720) (100000 - 31 * p);
      14 ≤ s.config.tw ∧ (531440#20).toNat < 531441 ∧ 121 ≤ p ∧ p ≤ 511 ∧ s.enabled = true ∧ s.decoder.skip = false ∧
      s.decoder.state = .syncWait ∧ s.decoder.inCallback = false ∧ s.decoder.minRepeats.toNat ≤ 1 ∧
      interval s.config.tw 100000 s.decoder.t2 = 31 * p ∧
      p * 4 / 10 ≤ interval s.config.tw 200000 (100000 + 128 * p) ∧
      duration s ≤ 3720 := by decide

theorem witness_SendStartsTransmission :
    State.reset.encoder.txBusy = false ∧ 2 ^ 23 ≤ (0x00800000#32).toNat := by decide

theorem witness_TurnedAwayRequestsChangeNothing :
    (sendingAt 0x64018F38#32 0 0 0).encoder.txBusy = true ∧ (0x007FFFFF#32).toNat < 2 ^ 23 ∧ ¬ AllTrits 0xC00000#24 := by
  decide

/-- The four kinds of segment end. -/
theorem witness_TxStepAdvancesSequencer :
    (∀ x ∈ [(0#4, 0#2, 200), (11#4, 2#2, 600), (12#4, 0#2, 200)],
      let s := { sendingAt 0x64118F38#32 0 x.1 x.2.1 with clk := 1000 + x.2.2 };
      s.encoder.txBusy = true ∧ segmentMicros s.encoder = some x.2.2 ∧
      interval s.config.tw s.clk s.encoder.txSegStart = x.2.2 ∧
      ((s.encoder.txSym.toNat < 12 ∧ s.encoder.txSeg ≠ 3#2) ∨ (s.encoder.txSym = 12#4 ∧ s.encoder.txSeg = 0#2))) ∧
    (let s := { sendingAt 0x64118F38#32 0 11 3 with clk := 1200 };
      s.encoder.txBusy = true ∧ segmentMicros s.encoder = some 200 ∧
      interval s.config.tw s.clk s.encoder.txSegStart = 200 ∧ s.encoder.txSym.toNat < 12 ∧ s.encoder.txSeg = 3#2) ∧
    (let s := { sendingAt 0x64118F38#32 0 12 1 with clk := 7200 };
      segmentMicros s.encoder = some 6200 ∧ interval s.config.tw s.clk s.encoder.txSegStart = 6200 ∧
      s.encoder.txRep.toNat + 1 < s.encoder.txRepeats.toNat) ∧
    (let s := { sendingAt 0x64118F38#32 1 12 1 with clk := 7200 };
      segmentMicros s.encoder = some 6200 ∧ interval s.config.tw s.clk s.encoder.txSegStart = 6200 ∧
      s.encoder.txRepeats.toNat ≤ s.encoder.txRep.toNat + 1) := by
  decide

theorem witness_TxStepOutsideItsInstantIsInert :
    State.reset.encoder.txBusy = false ∧
    (let s := { sendingAt 0x64118F38#32 0 0 0 with clk := 1199 };
      segmentMicros s.encoder ≠ some (interval s.config.tw s.clk s.encoder.txSegStart)) := by decide

theorem witness_SentSymbolTakesEightPeriods :
    (∀ x ∈ [(0#4, 0#2), (1#4, 1#2), (11#4, 2#2)], let s := sendingAt 0x64018F38#32 0 x.1 0;
      14 ≤ s.config.tw ∧ s.encoder.txBusy = true ∧ s.encoder.txSym.toNat < 12 ∧ s.encoder.txSeg = 0#2 ∧
      symAt s.encoder.txSymbols s.encoder.txSym.toNat = x.2) ∧
    12 ≤ (sendingAt 0x64018F38#32 0 12 0).encoder.txSym.toNat := by decide

theorem witness_SentSyncTakes32Periods :
    (let s := sendingAt 0x64118F38#32 0 12 0;
      14 ≤ s.config.tw ∧ s.encoder.txBusy = true ∧ s.encoder.txSym = 12#4 ∧ s.encoder.txSeg = 0#2 ∧
      s.encoder.txRep.toNat + 1 < s.encoder.txRepeats.toNat) ∧
    (let s := sendingAt 0x64118F38#32 1 12 0;
      s.encoder.txBusy = true ∧ s.encoder.txSym = 12#4 ∧ s.encoder.txSeg = 0#2 ∧
      s.encoder.txRepeats.toNat ≤ s.encoder.txRep.toNat + 1) ∧
    State.reset.encoder.txSym ≠ 12#4 := by decide

theorem witness_TransmissionRunsItsSegments :
    14 ≤ State.reset.config.tw ∧ State.reset.encoder.txBusy = false ∧ 2 ^ 23 ≤ (0x64018F38#32).toNat ∧
    State.reset.inbox = [] := by decide

theorem witness_DataRowsGiveTheirValue : AllTrits symvK ∧ ¬ AllTrits 0x000003#24 := by decide

/-- What arrives 100 after the clock comes before a segment end 200 after it. -/
theorem arrival_before_segment_end (x : Stimulus) :
    let a : Arrival := ⟨1100, false, x⟩;
    ArrivalFirst a { sendingAt 0x64018F38#32 0 0 0 with inbox := [a] } := by
  intro a t ht
  have h : segmentEnd 32 (sendingAt 0x64018F38#32 0 0 0).encoder = some 1200 := by decide
  have he : t = 1200 := Option.some.inj (ht.symm.trans h)
  subst he
  exact .inl (show interval 32 1100 1000 < interval 32 1200 1000 by decide)

theorem witness_StepRunsDecodedInstruction :
    let a : Arrival := ⟨1100, false, .word (encode .readState)⟩;
    let s := { sendingAt 0x64018F38#32 0 0 0 with inbox := [a] };
    s.inbox = a :: [] ∧ ArrivalFirst a s ∧ a.what = .word (encode .readState) ∧
    decode (encode .readState) = .ok .readState ∧ decodeTableWord 8 0x5 = some .readState :=
  ⟨rfl, arrival_before_segment_end _, rfl, rfl, by decide⟩

theorem witness_RxEdgeSamplesTheClock :
    let a : Arrival := ⟨1100, false, .rxEdge⟩;
    let s := { sendingAt 0x64018F38#32 0 0 0 with inbox := [a] };
    s.inbox = a :: [] ∧ ArrivalFirst a s ∧ a.what = .rxEdge ∧ 1100 = a.time % 2 ^ s.config.tw :=
  ⟨rfl, arrival_before_segment_end _, rfl, by decide⟩

theorem witness_StepEndsSegmentsOnTime :
    SegmentEndFirst 1200 { sendingAt 0x64018F38#32 0 0 0 with inbox := [⟨1200, false, .rxEdge⟩] } := by
  refine ⟨by decide, ?_⟩
  intro a later h
  cases h
  decide

theorem witness_MachineRestsWithNothingToCome :
    State.reset.encoder.txBusy = false ∧ State.reset.inbox = [] := by decide

theorem witness_SimultaneousEventsTakeEitherOrder :
    segmentEnd State.reset.config.tw (sendingAt 0x64018F38#32 0 12 1).encoder = some 7200 ∧
    decode (encode .enable) = .ok .enable := by decide

/-- Edges come from the receive line, not as requests. -/
theorem witness_NothingStopsTheMachine :
    onPorts [⟨7, false, .rxEdge⟩, ⟨8, true, .word (encode .cbDone)⟩] = true ∧
    onPorts [⟨7, false, .word (encode (.edge 7))⟩] = false := by decide

theorem witness_UnitsShareOnlyEnabled :
    (∃ t, exec (.sendTelegram 0x64018F38#32) State.reset = .next t ∧ t.encoder ≠ State.reset.encoder) ∧
    (∃ t, exec (.edge 5) State.reset = .next t ∧ t.decoder ≠ State.reset.decoder) ∧
    ∃ t, exec .readState State.reset = .next t ∧ t.result ≠ State.reset.result :=
  ⟨⟨_, rfl, by decide⟩, ⟨_, rfl, by decide⟩, ⟨_, rfl, by decide⟩⟩

theorem witness_ResetMeetsInvariant : 14 ≤ (machineWith 14).config.tw ∧ Inv (machineWith 14) := by decide

/-- A machine in the middle of a transmission meets the invariant, and it steps. -/
theorem witness_StepKeepsInvariant :
    Inv (sendingAt 0x64118F38#32 1 12 0) ∧ (next (step (sendingAt 0x64118F38#32 1 12 0))).isSome = true := by decide

theorem witness_OnlyEnableLiftsTheGuard :
    Instr.edge 5 ≠ .enable ∧ Guarded (sendingAt 0x64118F38#32 0 0 0) ∧
    (next (exec (.edge 5) (sendingAt 0x64118F38#32 0 0 0))).isSome = true := by decide

theorem witness_NoSelfReceptionDuringSendTelegram :
    let s := { sendingAt 0x64018F38#32 0 0 0 with inbox := [⟨1000, true, .rxEdge⟩] };
    OnlyEdges s.inbox ∧ s.encoder.txBusy = true ∧ s.encoder.txRestore = true ∧ s.enabled = false ∧ s.decoded = none ∧
    (next (runSteps 2 s)).map (·.encoder.txBusy) = some true := by
  refine ⟨?_, by decide⟩
  intro a ha
  rw [List.mem_singleton.mp ha]
  exact .inl rfl

end Sys2Proof.Tests
end

section
/-!
PROOFS. The scope of the core (00_scope.md): whatever the `LAYOUT_*` parameters are, a telegram word is well formed and
gives its symbols back (O13), and the two signal units share `enabled` and nothing else (O56).
-/

namespace Sys2Proof.Machine

/-! ## The fields of a telegram word -/

/-- With in-range fields the OR of rule R80 overlaps nowhere: it puts the three fields in their places.
Bit by bit: the code below 20, the exponent below 23, the period above. -/
theorem or_shifts_eq_assembleWord (p : BitVec 9) (r : BitVec 3) (c : BitVec 20) :
    c.setWidth 32 ||| (p.setWidth 32 <<< 23) ||| (r.setWidth 32 <<< 20) = assembleWord p r c := by
  apply BitVec.eq_of_getLsbD_eq
  intro i hi
  simp only [assembleWord, BitVec.getLsbD_append, BitVec.getLsbD_or, BitVec.getLsbD_shiftLeft, BitVec.getLsbD_setWidth]
  rcases Nat.lt_or_ge i 20 with hc | hc
  · simp [hc, hi, show i < 23 by omega]
  · have hcode : c.getLsbD i = false := BitVec.getLsbD_of_ge c i hc
    rcases Nat.lt_or_ge i 23 with hr | hr
    · simp [hcode, hi, hr, show ¬ i < 20 by omega, show i - 20 < 3 by omega, show i - 20 < 32 by omega]
    · have hrep : r.getLsbD (i - 20) = false := BitVec.getLsbD_of_ge r _ (by omega)
      have hsub : i - 20 - 3 = i - 23 := by omega
      simp [hcode, hrep, hi, hsub, show ¬ i < 20 by omega, show ¬ i < 23 by omega, show ¬ i - 20 < 3 by omega,
        show i - 23 < 32 by omega]

theorem assembleWord_toNat (p : BitVec 9) (r : BitVec 3) (c : BitVec 20) :
    (assembleWord p r c).toNat = (p.toNat * 2 ^ 3 + r.toNat) * 2 ^ 20 + c.toNat := by
  rw [assembleWord, BitVec.toNat_append, BitVec.toNat_append, ← Nat.shiftLeft_add_eq_or_of_lt r.isLt,
    ← Nat.shiftLeft_add_eq_or_of_lt c.isLt, Nat.shiftLeft_eq, Nat.shiftLeft_eq]

@[simp] theorem periodField_assembleWord (p : BitVec 9) (r : BitVec 3) (c : BitVec 20) :
    periodField (assembleWord p r c) = p := by
  apply BitVec.eq_of_toNat_eq
  rw [periodField, BitVec.extractLsb'_toNat, assembleWord_toNat, Nat.shiftRight_eq_div_pow]
  omega

@[simp] theorem repeatField_assembleWord (p : BitVec 9) (r : BitVec 3) (c : BitVec 20) :
    repeatField (assembleWord p r c) = r := by
  apply BitVec.eq_of_toNat_eq
  rw [repeatField, BitVec.extractLsb'_toNat, assembleWord_toNat, Nat.shiftRight_eq_div_pow]
  omega

@[simp] theorem codeField_assembleWord (p : BitVec 9) (r : BitVec 3) (c : BitVec 20) :
    codeField (assembleWord p r c) = c := by
  apply BitVec.eq_of_toNat_eq
  rw [codeField, BitVec.extractLsb'_toNat, assembleWord_toNat, Nat.shiftRight_eq_div_pow]
  omega

/-- A word that fits `n` bits is what those bits show. -/
theorem setWidth_setWidth_of_lt {n : Nat} {x : Word} (h : x.toNat < 2 ^ n) : (x.setWidth n).setWidth 32 = x := by
  apply BitVec.eq_of_toNat_eq
  rw [BitVec.toNat_setWidth, BitVec.toNat_setWidth, Nat.mod_eq_of_lt h, Nat.mod_eq_of_lt x.isLt]

/-- The code of a legal vector as a word and in 20 bits is the same number. -/
theorem setWidth_codeOfSymv {v : BitVec 24} (hv : hasReservedSymbol v = false) :
    (BitVec.ofNat 20 (codeOfSymv v)).setWidth 32 = BitVec.ofNat 32 (codeOfSymv v) := by
  have hlt := codeOfSymv_lt hv
  apply BitVec.eq_of_toNat_eq
  rw [BitVec.toNat_setWidth, BitVec.toNat_ofNat, BitVec.toNat_ofNat]
  omega

/-- Packing a legal vector with in-range operands gives the word of their fields (rules R55, R80). -/
theorem packTelegram_eq_assembleWord {v : BitVec 24} {p r : Word} (hv : hasReservedSymbol v = false)
    (hp : p.toNat ≤ 511) (hr : r.toNat ≤ 7) :
    packTelegram v p r = assembleWord (p.setWidth 9) (r.setWidth 3) (BitVec.ofNat 20 (codeOfSymv v)) := by
  rw [← or_shifts_eq_assembleWord, setWidth_setWidth_of_lt (n := 9) (by omega),
    setWidth_setWidth_of_lt (n := 3) (by omega), setWidth_codeOfSymv hv, packTelegram]

/-- Rule R91: unpacking gives the operands and the code of a packed legal vector back. -/
theorem execUnpackTelegram_packTelegram {v : BitVec 24} {p r : Word} (s : State) (hv : hasReservedSymbol v = false)
    (hp : p.toNat ≤ 511) (hr : r.toNat ≤ 7) :
    execUnpackTelegram (packTelegram v p r) s =
      .next (s.withResult (.fields p r (BitVec.ofNat 32 (codeOfSymv v)))) := by
  simp only [execUnpackTelegram, packTelegram_eq_assembleWord hv hp hr, periodField_assembleWord,
    repeatField_assembleWord, codeField_assembleWord, setWidth_codeOfSymv hv]
  rw [setWidth_setWidth_of_lt (n := 9) (by omega), setWidth_setWidth_of_lt (n := 3) (by omega)]

/-- The code of a legal vector gives its symbols back (rules R82, R91). -/
theorem execCodeToSymbols_codeOfSymv {v : BitVec 24} (s : State) (hv : hasReservedSymbol v = false) :
    execCodeToSymbols (BitVec.ofNat 20 (codeOfSymv v)) s = .next (s.withResult (.word (v.setWidth 32))) := by
  rw [execCodeToSymbols, codeToSymv_codeOfSymv hv]

/-- Twelve symbols pack to a legal vector: none of them has the reserved value (rule R90 (b)). -/
theorem packTrits_no_reserved {ts : List Trit} (hl : ts.length = 12) : hasReservedSymbol (packTrits ts) = false := by
  rw [hasReservedSymbol, symDigits_packTrits hl, List.any_eq_false]
  intro d hd
  obtain ⟨t, -, rfl⟩ := List.mem_map.mp hd
  have := trit_toNat_lt t
  simp only [beq_iff_eq]
  omega

/-! ## What an instruction writes -/

/-- The instructions that work on the encoder's registers. -/
def Transmits (i : Instr) : Prop :=
  i = .txStep ∨ i = .txSym0 ∨ i = .txSym1 ∨ i = .txSym2 ∨ i = .txSync ∨ (∃ w, i = .sendTelegram w) ∨ ∃ w, i = .sendCode w

/-- The instructions that work on the decoder's registers. -/
def Receives (i : Instr) : Prop :=
  (∃ now, i = .edge now) ∨ (∃ v, i = .setMinRepeats v) ∨ i = .cbDone ∨ i.format = .air4 ∨ i.format = .airsync

/-- All that an instruction can do to a state, by what it writes. An instruction that is turned away leaves the result
ports as they were, which is the first case. -/
inductive Effect (i : Instr) (s : State) : State → Prop
  /-- Only the result ports. -/
  | answer (r : Result) : Effect i s (s.withResult r)
  /-- Only the shared flag. -/
  | gate (b : Bool) : Effect i s { s with enabled := b }
  /-- Only the decoder and its event. -/
  | receive (hi : Receives i) (r : Decoder × Option DecodedEvent) : Effect i s (s.withDecoder r)
  /-- Only the encoder, the shared flag and the clock. -/
  | transmit (hi : Transmits i) {t : State} (hconfig : t.config = s.config) (hdecoder : t.decoder = s.decoder)
      (hinbox : t.inbox = s.inbox) (hresult : t.result = s.result) : Effect i s t
  /-- Every register. -/
  | reset (hi : i = .reset) : Effect i s s.resetRegisters

namespace Effect

variable {i : Instr} {s t u v : State}

theorem unchanged : Effect i s s := .answer s.result

theorem of_next (h : (.next u : Host.Outcome State Fault Refusal) = .next t) (hu : Effect i s u) : Effect i s t := by
  cases h
  exact hu

theorem of_ite {c : Prop} [Decidable c]
    (h : (if c then .next u else .next v : Host.Outcome State Fault Refusal) = .next t)
    (hu : Effect i s u) (hv : Effect i s v) : Effect i s t := by
  split at h
  · exact of_next h hu
  · exact of_next h hv

theorem of_receive (hi : Receives i) (cs : List IntervalClass) : Effect i s (s.receive cs) := by
  rcases receive_cases cs s with ⟨-, -, h⟩ | ⟨-, h⟩ <;> rw [h]
  · exact .receive hi _
  · exact .unchanged

theorem of_txAdvance (hi : Transmits i) (now : Stamp) : Effect i s (txAdvance now s) := by
  obtain ⟨hconfig, hdecoder, -, hinbox, hresult, -⟩ := txAdvance_frame now s
  exact .transmit hi hconfig hdecoder hinbox hresult

theorem of_runSegments (hi : Transmits i) (k : Nat) : Effect i s (runSegments k s) := by
  obtain ⟨hconfig, hdecoder, hinbox, hresult, -⟩ := runSegments_frame k s
  exact .transmit hi hconfig hdecoder hinbox hresult

end Effect

/-- Every instruction has one of the effects, and only the instructions of a unit write its registers. -/
theorem exec_effect {i : Instr} {s t : State} (h : exec i s = .next t) : Effect i s t := by
  cases i with
  | nop | reservedF | symReserved => exact .of_next h .unchanged
  | enable | disable => exact .of_next h (.gate _)
  | readState | unpackTelegram | codeToSymbols | isSameCode | getTelegram | getKaku | getKakuGroup | getAction
  | getBlokker | getElro | telegramWord | symLow | symHigh | symFloat => exact .of_next h (.answer _)
  | encodeTelegram | symv => exact .of_ite h .unchanged (.answer _)
  | setMinRepeats | cbDone => exact .of_next h (.receive (by simp [Receives]) (_, none))
  | edge => exact .of_ite h (.receive (by simp [Receives]) _) .unchanged
  | rxTrit0 | rxTrit1 | rxTrit2 | rxIllegal | rxSync =>
    exact .of_next h (.of_receive (by simp [Receives, Instr.format]) _)
  | sendTelegram | sendCode => exact .of_ite h .unchanged (.transmit (by simp [Transmits]) rfl rfl rfl rfl)
  | txStep => exact .of_ite h (.of_txAdvance (by simp [Transmits]) _) .unchanged
  | txSym0 | txSym1 | txSym2 | txSync => exact .of_ite h (.of_runSegments (by simp [Transmits]) _) .unchanged
  | reset => exact .of_next h (.reset rfl)

/-! ## What each effect leaves unchanged -/

namespace Effect

variable {i : Instr} {s t : State}

theorem config_eq (h : Effect i s t) : t.config = s.config := by
  cases h with
  | transmit _ hconfig => exact hconfig
  | _ => rfl

theorem inbox_eq (h : Effect i s t) : t.inbox = s.inbox := by
  cases h with
  | transmit _ _ _ hinbox => exact hinbox
  | _ => rfl

/-- Only `RESET` writes registers of both units. -/
theorem one_unit (h : Effect i s t) : t.encoder = s.encoder ∨ t.decoder = s.decoder ∨ i = .reset := by
  cases h with
  | transmit _ _ hdecoder => exact .inr (.inl hdecoder)
  | reset hi => exact .inr (.inr hi)
  | _ => exact .inl rfl

theorem transmits_of_encoder_ne (h : Effect i s t) (hne : t.encoder ≠ s.encoder) : i = .reset ∨ Transmits i := by
  cases h with
  | transmit hi => exact .inr hi
  | reset hi => exact .inl hi
  | _ => exact absurd rfl hne

theorem receives_of_decoder_ne (h : Effect i s t) (hne : t.decoder ≠ s.decoder) : i = .reset ∨ Receives i := by
  cases h with
  | receive hi => exact .inr hi
  | reset hi => exact .inl hi
  | transmit _ _ hdecoder => exact absurd hdecoder hne
  | _ => exact absurd rfl hne

/-- An instruction that gives a result is of the codec or reads: no register changes (rule R23). -/
theorem registers_eq_of_result_ne (h : Effect i s t) (hne : t.result ≠ s.result) :
    t.decoder = s.decoder ∧ t.encoder = s.encoder ∧ t.enabled = s.enabled := by
  cases h with
  | answer => exact ⟨rfl, rfl, rfl⟩
  | transmit _ _ _ _ hresult => exact absurd hresult hne
  | _ => exact absurd rfl hne

end Effect

end Sys2Proof.Machine

/-! ## The obligations -/

namespace Sys2Proof.Claims

open Sys2Proof.Machine

/-- Settles O13. Twelve trits pack to a legal vector whatever layout gave them, so the round trip of legal vectors
applies. -/
theorem anyLayoutsGiveWellFormedTelegrams : Obligations.AnyLayoutsGiveWellFormedTelegrams := by
  rintro tuple p r s ts w rfl rfl
  have hlen := tupleSymbols_length s.config.layouts tuple
  have hlegal := packTrits_no_reserved hlen
  refine ⟨hlen, rfl, fun hp hr => ?_⟩
  generalize hv : packTrits (tupleSymbols s.config.layouts tuple) = v at hlegal
  have hlt := codeOfSymv_lt hlegal
  refine ⟨BitVec.ofNat 32 (codeOfSymv v), ?_, ?_, ?_, ?_⟩
  · rwa [BitVec.toNat_ofNat, Nat.mod_eq_of_lt (by omega)]
  · rw [telegramOfTrits, hv]
    exact execUnpackTelegram_packTelegram s hlegal hp hr
  · rw [BitVec.setWidth_ofNat_of_le (by decide)]
    exact execCodeToSymbols_codeOfSymv s hlegal
  · intro i t ht
    rw [← hv]
    exact symAt_packTrits hlen ht

/-- Settles O56, from the effects an instruction can have (`exec_effect`). -/
theorem unitsShareOnlyEnabled : Obligations.UnitsShareOnlyEnabled := by
  intro i s t h
  have he := exec_effect h
  exact ⟨he.config_eq, he.inbox_eq, he.one_unit, he.transmits_of_encoder_ne, he.receives_of_decoder_ne,
    he.registers_eq_of_result_ne⟩

end Sys2Proof.Claims
end

section
/-!
PROOFS. The state of the core (10_state.md): the invariant holds at reset (O57) and every step keeps it (O58); the
values of reset (O48); the decoder's sequencer moves by its table alone (O27), and not at all on classified intervals
that it does not listen to (O34); the clock is sampled at the transition (O51).
-/

namespace Sys2Proof.Machine

open Sys2Proof.Safety Sys2Proof.Claims

/-! ## The clock moves to what comes first -/

/-- Rule R137: a time that is not after the end of a segment is within the segment's length of its start. -/
theorem interval_le_of_le_end {tw : Nat} {start clk stop time : Stamp}
    (hclk : interval tw clk start ≤ interval tw stop start) (htime : interval tw time clk ≤ interval tw stop clk) :
    interval tw time start ≤ interval tw stop start := by
  have hrange := interval_lt tw stop start
  have hstop := interval_trans tw start clk stop
  rcases Nat.lt_or_ge (interval tw stop clk + interval tw clk start) (2 ^ tw) with hsum | hsum
  · rw [Nat.mod_eq_of_lt hsum] at hstop
    rw [interval_trans tw start clk time, Nat.mod_eq_of_lt (by omega)]
    omega
  · have hlt := interval_lt tw stop clk
    rw [Nat.mod_eq_sub_mod hsum, Nat.mod_eq_of_lt (by omega)] at hstop
    omega

/-- A segment that has just begun has not ended. -/
theorem segmentEndAhead_of_start {s : State} (h : interval s.config.tw s.clk s.encoder.txSegStart = 0) :
    SegmentEndAhead s := fun _ => by simp [h]

/-- The clock may move anywhere up to the end of the segment in progress. -/
theorem segmentEndAhead_atClock {s : State} {time : Stamp} (htw : GoodConfig s.config) (h : SegmentEndAhead s)
    (htime : ∀ stop, segmentEnd s.config.tw s.encoder = some stop →
      interval s.config.tw time s.clk ≤ interval s.config.tw stop s.clk) :
    SegmentEndAhead (s.atClock time) := by
  intro hbusy
  have hahead := h hbusy
  simp only [Option.all_eq_true, decide_eq_true_eq] at hahead ⊢
  intro len hlen
  have hend := segmentEnd_of_busy htw hbusy hlen
  obtain ⟨len', -, hlen', -, -, -, hinterval, -⟩ := segmentEnd_eq_some hend
  obtain rfl : len' = len := Option.some.inj (hlen'.symm.trans hlen)
  have hclk := hahead len' hlen
  rw [← hinterval] at hclk ⊢
  exact interval_le_of_le_end hclk (htime _ hend)

/-- The invariant outlives a move of the clock up to the end of the segment in progress. -/
theorem inv_atClock {s : State} {time : Stamp} (h : Inv s) (hrange : time < 2 ^ s.config.tw)
    (htime : ∀ stop, segmentEnd s.config.tw s.encoder = some stop →
      interval s.config.tw time s.clk ≤ interval s.config.tw stop s.clk) : Inv (s.atClock time) := by
  obtain ⟨hconfig, hdecoder, hencoder, ⟨-, hstart⟩, hahead⟩ := h
  exact ⟨hconfig, hdecoder, hencoder, ⟨hrange, hstart⟩, segmentEndAhead_atClock hconfig hahead htime⟩

theorem inv_atClock_segmentEnd {s : State} {stop : Stamp} (h : Inv s)
    (hstop : segmentEnd s.config.tw s.encoder = some stop) : Inv (s.atClock stop) := by
  obtain ⟨len, -, -, -, -, hwrap, -⟩ := segmentEnd_eq_some hstop
  refine inv_atClock h (hwrap ▸ wrap_lt _ _) fun stop' hstop' => ?_
  rw [Option.some.inj (hstop.symm.trans hstop')]

/-! ## The encoder's invariant -/

theorem lastSegment_iff (e : Encoder) :
    lastSegment e = true ↔ (e.txSym.toNat < 12 ∧ e.txSeg = 3#2) ∨ (e.txSym = 12#4 ∧ e.txSeg = 1#2) := by
  simp [lastSegment]

theorem encoderInv_nextSegment {e : Encoder} (h : EncoderInv e) (hbusy : e.txBusy = true)
    (hlast : lastSegment e = false) : EncoderInv (nextSegment e) := by
  obtain ⟨⟨hsym, hseg, hlegal⟩, hfacts, -⟩ := h
  obtain ⟨hrep, hperiod, -⟩ := hfacts hbusy
  refine ⟨⟨hsym, fun h12 => ?_, hlegal⟩, fun _ => ⟨hrep, hperiod, rfl⟩, fun hidle => by simp [hbusy] at hidle⟩
  have hseg1 : e.txSeg ≠ 1#2 := fun h1 => by
    have := (lastSegment_iff e).mpr (.inr ⟨BitVec.eq_of_toNat_eq h12, h1⟩)
    simp [hlast] at this
  have := hseg h12
  simp only [nextSegment_txSeg]
  bv_omega

theorem encoderInv_nextSymbol {e : Encoder} (h : EncoderInv e) (hbusy : e.txBusy = true)
    (hsym : e.txSym.toNat < 12) : EncoderInv (nextSymbol e) := by
  obtain ⟨⟨-, -, hlegal⟩, hfacts, -⟩ := h
  obtain ⟨hrep, hperiod, -⟩ := hfacts hbusy
  have hnext : (e.txSym + 1#4).toNat ≤ 12 := by bv_omega
  exact ⟨⟨hnext, fun _ => Nat.zero_le _, hlegal⟩, fun _ => ⟨hrep, hperiod, by simp⟩,
    fun hidle => by simp [hbusy] at hidle⟩

theorem encoderInv_nextFrame {e : Encoder} (h : EncoderInv e) (hbusy : e.txBusy = true)
    (hrep : e.txRep.toNat + 1 < e.txRepeats.toNat) : EncoderInv (nextFrame e) := by
  obtain ⟨⟨-, -, hlegal⟩, hfacts, -⟩ := h
  obtain ⟨-, hperiod, -⟩ := hfacts hbusy
  have hnext : (e.txRep + 1#8).toNat < e.txRepeats.toNat := by
    have := e.txRepeats.isLt
    bv_omega
  exact ⟨⟨Nat.zero_le _, fun _ => Nat.zero_le _, hlegal⟩, fun _ => ⟨hnext, hperiod, by simp⟩,
    fun hidle => by simp [hbusy] at hidle⟩

theorem encoderInv_finishTransmission {e : Encoder} (h : EncoderInv e) : EncoderInv (finishTransmission e) := by
  obtain ⟨⟨-, -, hlegal⟩, -, -⟩ := h
  exact ⟨⟨Nat.zero_le _, fun _ => Nat.zero_le _, hlegal⟩, fun hbusy => by simp at hbusy,
    fun _ => ⟨rfl, rfl, rfl, rfl, rfl⟩⟩

theorem encoderInv_txAdvance {s : State} (now : Stamp) (h : EncoderInv s.encoder) (hbusy : s.encoder.txBusy = true) :
    EncoderInv (txAdvance now s).encoder := by
  rcases txAdvance_cases now s with ⟨hlast, ht⟩ | ⟨-, hsym, ht⟩ | ⟨-, -, hrep, ht⟩ | ⟨-, -, -, ht⟩ <;> rw [ht]
  · exact encoderInv_nextSegment (e := { s.encoder with txSegStart := now }) h hbusy hlast
  · exact encoderInv_nextSymbol (e := { s.encoder with txSegStart := now }) h hbusy hsym
  · exact encoderInv_nextFrame (e := { s.encoder with txSegStart := now }) h hbusy hrep
  · exact encoderInv_finishTransmission (e := { s.encoder with txSegStart := now }) h

/-- Rule R132: the symbols of a code are legal, and `2^r` frames are left, which 8 bits hold. -/
theorem encoderInv_startTransmission (c : BitVec 20) {p : BitVec 9} (r : BitVec 3) (restore : Bool) (now : Stamp)
    (hp : p ≠ 0#9) : EncoderInv (startTransmission c p r restore now) := by
  have hframes : 0 < (BitVec.ofNat 8 (2 ^ r.toNat)).toNat := by
    have hlt : 2 ^ r.toNat < 2 ^ 8 := Nat.pow_lt_pow_right (by decide) (by have := r.isLt; omega)
    rw [BitVec.toNat_ofNat, Nat.mod_eq_of_lt hlt]
    exact Nat.two_pow_pos _
  exact ⟨⟨Nat.zero_le _, fun _ => Nat.zero_le _, codeToSymv_no_reserved c⟩,
    fun _ => ⟨hframes, hp, by simp [startTransmission, segLevel]⟩, fun hidle => by cases hidle⟩

/-! ## The encoder's operations keep the invariant -/

/-- Rule R136: a segment ends at the clock's value, and the next begins there. -/
theorem inv_txAdvance {s : State} (h : Inv s) (hbusy : s.encoder.txBusy = true) : Inv (txAdvance s.clk s) := by
  obtain ⟨hconfig, hdecoder, hencoder, ⟨hclk, -⟩, -⟩ := h
  obtain ⟨hc, hd, hk, -, -, -, hstart⟩ := txAdvance_frame s.clk s
  refine ⟨hc ▸ hconfig, hc ▸ hd ▸ hdecoder, encoderInv_txAdvance s.clk hencoder hbusy, ?_, segmentEndAhead_of_start ?_⟩
  · rw [ClockInRange, hc, hk, hstart]
    exact ⟨hclk, hclk⟩
  · rw [hk, hstart, interval_self]

/-- Rule R137: the end of the segment in progress. -/
theorem inv_txAdvance_segmentEnd {s : State} {stop : Stamp} (h : Inv s)
    (hstop : segmentEnd s.config.tw s.encoder = some stop) : Inv (txAdvance stop (s.atClock stop)) := by
  obtain ⟨_, hbusy, -⟩ := segmentEnd_eq_some hstop
  exact inv_txAdvance (inv_atClock_segmentEnd h hstop) hbusy

theorem inv_runSegments (k : Nat) {s : State} (h : Inv s) : Inv (runSegments k s) := by
  induction k generalizing s with
  | zero => exact h
  | succ k ih =>
    unfold runSegments
    split
    case h_1 stop hstop => exact ih (inv_txAdvance_segmentEnd h hstop)
    case h_2 => exact h

/-- An accepted send starts a transmission at the clock's value (rules R131, R132). -/
theorem inv_startWord {s : State} {word : Word} (restore b : Bool) (h : Inv s)
    (haccept : ¬ sendRefused s.encoder word = true) :
    Inv { s with enabled := b, encoder := startWord word restore s.now } := by
  obtain ⟨hconfig, hdecoder, -, ⟨hclk, -⟩, -⟩ := h
  rw [sendRefused_iff, not_or] at haccept
  obtain ⟨-, hperiod⟩ := haccept
  refine ⟨hconfig, hdecoder, encoderInv_startTransmission _ _ restore s.now hperiod, ⟨hclk, wrap_lt _ _⟩,
    segmentEndAhead_of_start ?_⟩
  exact (interval_wrap_right _ _ _).trans (interval_self _ _)

/-- The registers of reset meet the invariant at any value of the clock. -/
theorem inv_resetRegisters {s : State} (hconfig : GoodConfig s.config) (hclk : s.clk < 2 ^ s.config.tw) :
    Inv s.resetRegisters := by
  have hpos : 0 < 2 ^ s.config.tw := Nat.two_pow_pos _
  have hcodes : BandsFollowPeriod Decoder.reset ∧ CodesInRange Decoder.reset ∧ RepeatsHaveRoom Decoder.reset ∧
      SkipOnlyMidDecode Decoder.reset := by decide
  obtain ⟨hbands, hcodes, hroom, hskip⟩ := hcodes
  have hencoder : EncoderInv Encoder.reset := by decide
  exact ⟨hconfig, ⟨hbands, Nat.zero_le _, ⟨hpos, hpos, hpos⟩, hcodes, hroom, hskip⟩, hencoder, ⟨hclk, hpos⟩,
    fun hbusy => by cases hbusy⟩

/-! ## What the state machine leaves unchanged -/

/-- Two decoders agree in the window and the pending skip (rules R17, R18). -/
def SameWindow (d d' : Decoder) : Prop := d'.t0 = d.t0 ∧ d'.t1 = d.t1 ∧ d'.t2 = d.t2 ∧ d'.skip = d.skip

theorem SameWindow.refl (d : Decoder) : SameWindow d d := ⟨rfl, rfl, rfl, rfl⟩

theorem sameWindow_acceptBit (n : Fin 48) (bit : Bool) (d : Decoder) : SameWindow d (acceptBit n bit d) := by
  rcases acceptBit_cases n bit d with ⟨-, h⟩ | ⟨-, _, -, h⟩ | ⟨-, -, h⟩ <;> rw [h] <;> exact SameWindow.refl d

theorem sameWindow_candidate (d : Decoder) : SameWindow d (candidate d).1 := by
  rcases candidate_cases d _ rfl with ⟨-, -, h⟩ | ⟨-, -, h⟩ | ⟨-, h⟩ <;> rw [h] <;> exact SameWindow.refl d

theorem sameWindow_consumeClass (c : IntervalClass) (d : Decoder) : SameWindow d (consumeClass c d).1 := by
  rcases consumeClass_cases c d with ⟨-, h⟩ | ⟨-, h⟩ | ⟨n, bit, -, -, h⟩ | ⟨-, -, h⟩ | ⟨-, -, h⟩ <;> rw [h]
  · exact SameWindow.refl d
  · exact SameWindow.refl d
  · exact sameWindow_acceptBit n bit d
  · exact SameWindow.refl d
  · exact sameWindow_candidate d

theorem sameWindow_consumeDuration (duration : Nat) (d : Decoder) : SameWindow d (consumeDuration duration d).1 := by
  rcases consumeDuration_cases duration d with ⟨-, -, h⟩ | ⟨-, -, h⟩ | ⟨-, h⟩ <;> rw [h]
  · exact SameWindow.refl d
  · exact SameWindow.refl d
  · exact sameWindow_consumeClass _ d

/-- Rule R102: whatever an edge does, it is the newest recorded one. -/
theorem edgeStep_t2 (tw : Nat) (now : Stamp) (d : Decoder) : (edgeStep tw now d).1.t2 = now := by
  rcases edgeStep_cases tw now d with ⟨-, h⟩ | ⟨-, -, -, h⟩ | ⟨-, -, h⟩ <;> rw [h]
  obtain ⟨-, -, ht2, -⟩ :=
    sameWindow_consumeDuration (interval tw d.t2 d.t0) { d with t0 := d.t2, t1 := d.t2, t2 := now }
  exact ht2

/-! ## The decoder's invariant -/

theorem tritsHeld_le (st : SeqState) : tritsHeld st ≤ 12 := by
  cases st with
  | symbol n => simp only [tritsHeld]; omega
  | _ => exact Nat.le_refl 12

theorem three_pow_tritsHeld_le (st : SeqState) : 3 ^ tritsHeld st ≤ 3 ^ 12 :=
  Nat.pow_le_pow_right (by decide) (tritsHeld_le st)

/-- In the middle of a symbol no trit is added (rule R111). -/
theorem tritsHeld_next_of_mid {n : Fin 48} (h : n.val % 4 ≠ 3) :
    tritsHeld (nextSymbolState n) = tritsHeld (.symbol n) := by
  rw [nextSymbolState_of_lt (by omega)]
  simp only [tritsHeld]
  omega

/-- At the end of a symbol one trit is added (rules R110, R111). -/
theorem tritsHeld_next_of_last {n : Fin 48} (h : n.val % 4 = 3) :
    tritsHeld (nextSymbolState n) = tritsHeld (.symbol n) + 1 := by
  rcases Nat.lt_or_ge (n.val + 1) 48 with hn | hn
  · rw [nextSymbolState_of_lt hn]
    simp only [tritsHeld]
    omega
  · have h47 : n.val = 47 := by omega
    simp [nextSymbolState_last h47, tritsHeld, h47]

theorem nextSymbolState_ne_syncWait (n : Fin 48) : nextSymbolState n ≠ .syncWait := by
  unfold nextSymbolState
  split <;> simp

/-- Rule R110: a code of `k` trits and one more trit make a code of `k + 1`; it does not wrap. -/
theorem accumulate_receivedCode_lt {d : Decoder} {k : Nat} (t : Trit) (hk : k < 12) (h : d.receivedCode.toNat < 3 ^ k) :
    (accumulate t d).receivedCode.toNat < 3 ^ (k + 1) := by
  have ht := trit_toNat_lt t
  have hpow : 3 ^ k ≤ 3 ^ 11 := Nat.pow_le_pow_right (by decide) (by omega)
  simp only [accumulate_receivedCode, Nat.pow_succ, BitVec.toNat_add, BitVec.toNat_mul, BitVec.toNat_ofNat]
  omega

section DecoderInv

variable {tw : Nat} {d : Decoder}

theorem decoderInv_abort (h : DecoderInv tw d) (hskip : d.skip = false) : DecoderInv tw (abort d) := by
  obtain ⟨hbands, hperiod, hstamps, ⟨hcode, hprevious⟩, -, -⟩ := h
  exact ⟨hbands, hperiod, hstamps, ⟨hcode.trans_le (three_pow_tritsHeld_le _), hprevious⟩, fun hst => absurd rfl hst,
    fun hk => by simp [hskip] at hk⟩

theorem decoderInv_acceptBit {n : Fin 48} (bit : Bool) (h : DecoderInv tw d) (hskip : d.skip = false)
    (hst : d.state = .symbol n) : DecoderInv tw (acceptBit n bit d) := by
  rcases acceptBit_cases n bit d with ⟨hmid, ha⟩ | ⟨hlast, t, -, ha⟩ | ⟨-, -, ha⟩ <;> rw [ha]
  case inr.inr => exact decoderInv_abort (d := shiftBit bit d) h hskip
  all_goals
    obtain ⟨hbands, hperiod, hstamps, ⟨hcode, hprevious⟩, hroom, -⟩ := h
    refine ⟨hbands, hperiod, hstamps, ⟨?_, hprevious⟩, fun _ => hroom (by simp [hst]),
      fun _ => nextSymbolState_ne_syncWait n⟩
    rw [hst] at hcode
  · rwa [advance_state, tritsHeld_next_of_mid hmid]
  · rw [advance_state, tritsHeld_next_of_last hlast]
    exact accumulate_receivedCode_lt (d := shiftBit bit d) t (by simp only [tritsHeld]; omega) hcode

/-- Rules R114, R115: if another frame is awaited, the count is below the threshold and so below 255. -/
theorem decoderInv_candidate (h : DecoderInv tw d) (hskip : d.skip = false) : DecoderInv tw (candidate d).1 := by
  obtain ⟨hbands, hperiod, hstamps, ⟨hcode, -⟩, -, -⟩ := h
  have hcode12 := hcode.trans_le (three_pow_tritsHeld_le _)
  have hnoSkip : ∀ st : SeqState, d.skip = true → st ≠ .syncWait := fun st hk => by simp [hskip] at hk
  rcases candidate_cases d _ rfl with ⟨-, -, hc⟩ | ⟨-, -, hc⟩ | ⟨hcount, hc⟩ <;> rw [hc]
  · exact ⟨hbands, hperiod, hstamps, ⟨hcode12, hcode12⟩, fun hst => absurd rfl hst, hnoSkip _⟩
  · exact ⟨hbands, hperiod, hstamps, ⟨hcode12, hcode12⟩, fun hst => absurd rfl hst, hnoSkip _⟩
  · have hmin := d.minRepeats.isLt
    exact ⟨hbands, hperiod, hstamps, ⟨Nat.one_pos, hcode12⟩, fun _ => by dsimp only; omega, hnoSkip _⟩

theorem decoderInv_consumeClass (c : IntervalClass) (h : DecoderInv tw d) (hskip : d.skip = false) :
    DecoderInv tw (consumeClass c d).1 := by
  rcases consumeClass_cases c d with ⟨-, hc⟩ | ⟨-, hc⟩ | ⟨n, bit, hst, -, hc⟩ | ⟨hst, -, hc⟩ | ⟨-, -, hc⟩ <;> rw [hc]
  · exact h
  · exact decoderInv_abort h hskip
  · exact decoderInv_acceptBit bit h hskip hst
  · obtain ⟨hbands, hperiod, hstamps, ⟨hcode, hprevious⟩, hroom, -⟩ := h
    exact ⟨hbands, hperiod, hstamps, ⟨hcode.trans_le (three_pow_tritsHeld_le _), hprevious⟩,
      fun _ => hroom (by simp [hst]), fun _ => by simp⟩
  · exact decoderInv_candidate h hskip

theorem decoderInv_consumeClasses (cs : List IntervalClass) (h : DecoderInv tw d) (hskip : d.skip = false) :
    DecoderInv tw (consumeClasses cs d).1 := by
  suffices hboth : DecoderInv tw (consumeClasses cs d).1 ∧ (consumeClasses cs d).1.skip = false from hboth.1
  refine List.foldlRecOn (motive := fun r : Decoder × Option DecodedEvent => DecoderInv tw r.1 ∧ r.1.skip = false)
    cs _ ⟨h, hskip⟩ ?_
  rintro r ⟨hr, hk⟩ c -
  obtain ⟨-, -, -, hsame⟩ := sameWindow_consumeClass c r.1
  exact ⟨decoderInv_consumeClass c hr hk, hsame.trans hk⟩

/-- Rules R106, R107, R16: the estimate of a gap that the clock can show fits, and the bands are made from it. -/
theorem decoderInv_detectSync {duration : Nat} (h : DecoderInv tw d) (hduration : duration < 2 ^ tw) :
    DecoderInv tw (detectSync duration d) := by
  obtain ⟨-, -, hstamps, -, -, -⟩ := h
  have hperiod : duration / 31 ≤ (2 ^ tw - 1) / 31 := Nat.div_le_div_right (by omega)
  exact ⟨⟨rfl, rfl, rfl, rfl⟩, hperiod, hstamps, ⟨Nat.one_pos, by simp⟩, fun _ => by simp, fun _ => by simp⟩

theorem decoderInv_consumeDuration {duration : Nat} (h : DecoderInv tw d) (hskip : d.skip = false)
    (hduration : duration < 2 ^ tw) : DecoderInv tw (consumeDuration duration d).1 := by
  rcases consumeDuration_cases duration d with ⟨-, -, hc⟩ | ⟨-, -, hc⟩ | ⟨-, hc⟩ <;> rw [hc]
  · exact h
  · exact decoderInv_detectSync h hduration
  · exact decoderInv_consumeClass _ h hskip

theorem decoderInv_edgeStep {now : Stamp} (h : DecoderInv tw d) (hnow : now < 2 ^ tw) :
    DecoderInv tw (edgeStep tw now d).1 := by
  obtain ⟨hbands, hperiod, ⟨ht0, ht1, ht2⟩, hcodes, hroom, hskipMid⟩ := h
  rcases edgeStep_cases tw now d with ⟨-, he⟩ | ⟨-, hst, -, he⟩ | ⟨hskip, -, he⟩ <;> rw [he]
  · exact ⟨hbands, hperiod, ⟨ht0, ht2, hnow⟩, hcodes, hroom, fun hk => by cases hk⟩
  · exact ⟨hbands, hperiod, ⟨ht0, ht2, hnow⟩, hcodes, hroom, fun _ => hst⟩
  · exact decoderInv_consumeDuration (d := { d with t0 := d.t2, t1 := d.t2, t2 := now })
      ⟨hbands, hperiod, ⟨ht2, ht2, hnow⟩, hcodes, hroom, hskipMid⟩ hskip (interval_lt _ _ _)

end DecoderInv

/-! ## Instructions and steps keep the invariant -/

theorem inv_withDecoder {s : State} {r : Decoder × Option DecodedEvent} (h : Inv s)
    (hr : DecoderInv s.config.tw r.1) : Inv (s.withDecoder r) := by
  obtain ⟨hconfig, -, hencoder, hclock, hahead⟩ := h
  exact ⟨hconfig, hr, hencoder, hclock, hahead⟩

theorem inv_receive {s : State} (cs : List IntervalClass) (h : Inv s) : Inv (s.receive cs) := by
  rcases receive_cases cs s with ⟨-, hskip, hr⟩ | ⟨-, hr⟩ <;> rw [hr]
  · obtain ⟨-, hdecoder, -⟩ := id h
    exact inv_withDecoder h (decoderInv_consumeClasses cs hdecoder hskip)
  · exact h

theorem inv_of_next {s t : State} (h : (.next s : Host.Outcome State Fault Refusal) = .next t) (hs : Inv s) :
    Inv t := by
  cases h
  exact hs

theorem inv_of_ite {c : Prop} [Decidable c] {s u t : State}
    (h : (if c then .next s else .next u : Host.Outcome State Fault Refusal) = .next t)
    (hs : c → Inv s) (hu : ¬ c → Inv u) : Inv t := by
  split at h
  case isTrue hc => exact inv_of_next h (hs hc)
  case isFalse hc => exact inv_of_next h (hu hc)

/-- Every instruction keeps the invariant. `SET_MIN_REPEATS`, `CB_DONE` and the flag `enabled` touch no register it
speaks of, and the codec only the result ports. -/
theorem exec_keeps_inv {i : Instr} {s t : State} (h : exec i s = .next t) (hs : Inv s) : Inv t := by
  obtain ⟨hconfig, hdecoder, -, ⟨hclk, -⟩, -⟩ := id hs
  cases i with
  | nop | reservedF | symReserved | enable | disable | setMinRepeats | cbDone | readState | unpackTelegram
  | codeToSymbols | isSameCode | getTelegram | getKaku | getKakuGroup | getAction | getBlokker | getElro
  | telegramWord | symLow | symHigh | symFloat => exact inv_of_next h hs
  | encodeTelegram | symv => exact inv_of_ite h (fun _ => hs) fun _ => hs
  | edge now =>
    exact inv_of_ite h (fun _ => inv_withDecoder hs (decoderInv_edgeStep hdecoder (wrap_lt _ _))) fun _ => hs
  | rxTrit0 | rxTrit1 | rxTrit2 | rxIllegal | rxSync => exact inv_of_next h (inv_receive _ hs)
  | sendTelegram | sendCode => exact inv_of_ite h (fun _ => hs) (inv_startWord _ _ hs)
  | txStep =>
    refine inv_of_ite h (fun hdue => ?_) fun _ => hs
    simp only [segmentDue, Bool.and_eq_true] at hdue
    obtain ⟨hbusy, -⟩ := hdue
    rw [show s.now = s.clk from wrap_of_lt hclk]
    exact inv_txAdvance hs hbusy
  | txSym0 | txSym1 | txSym2 | txSync => exact inv_of_ite h (fun _ => inv_runSegments _ hs) fun _ => hs
  | reset => exact inv_of_next h (inv_resetRegisters hconfig hclk)

theorem runStimulus_keeps_inv {x : Stimulus} {s t : State} (h : runStimulus x s = .next t) (hs : Inv s) : Inv t := by
  cases x with
  | rxEdge => exact exec_keeps_inv (i := .edge s.now) h hs
  | word w =>
    simp only [runStimulus, runWord] at h
    split at h
    case h_1 i _ => exact exec_keeps_inv h hs
    case h_2 => cases h

/-- An arrival that comes first is not after the end of the segment in progress. -/
theorem inv_takeArrival {s : State} {a : Arrival} (later : List Arrival) (h : Inv s) (hfirst : ArrivalFirst a s) :
    Inv (s.takeArrival a later) := by
  refine inv_atClock (s := { s with inbox := later }) h (wrap_lt _ _) fun stop hstop => ?_
  rw [interval_wrap_left]
  rcases hfirst stop hstop with hlt | ⟨heq, -⟩
  · exact Nat.le_of_lt hlt
  · exact Nat.le_of_eq heq

/-- The step is the first arrival when that comes first. -/
theorem step_of_arrivalFirst {s : State} {a : Arrival} {later : List Arrival} (hinbox : s.inbox = a :: later)
    (hfirst : ArrivalFirst a s) : step s = runStimulus a.what (s.quiet.takeArrival a later) := by
  rcases nextUp_cases s.quiet with ⟨-, hnil, -⟩ | ⟨stop, hstop, -, horder⟩ | ⟨a', later', hcons, hn, -⟩
  · cases hinbox.symm.trans hnil
  · have hend := horder a later hinbox
    have harrival := hfirst stop hstop
    simp only [quiet_config, quiet_clk, untilTime] at hend harrival
    rcases hend with hlt | ⟨heq, hflag⟩
    · omega
    · obtain ⟨-, hflag'⟩ := harrival.resolve_left (by omega)
      simp [hflag] at hflag'
  · cases hinbox.symm.trans hcons
    simp only [step, hn]

/-! ## The state transition table -/

/-- The rows of the table of 41_decoder.md section 4, from one value of the sequencer to another, when the duration
consumed is `duration`. -/
inductive TableRow (duration : Nat) : SeqState → SeqState → Prop
  | stay (st : SeqState) : TableRow duration st st
  | abort (st : SeqState) : TableRow duration st .syncWait
  | sync (h : 3720 < duration) : TableRow duration .syncWait (.symbol 0)
  | next (n : Fin 48) : TableRow duration (.symbol n) (nextSymbolState n)
  | finalShort : TableRow duration .finalSync1 .finalSync2
  | nextFrame : TableRow duration .finalSync2 (.symbol 0)

namespace TableRow

theorem of_acceptBit {duration : Nat} {n : Fin 48} {d : Decoder} (bit : Bool) (hst : d.state = .symbol n) :
    TableRow duration d.state (acceptBit n bit d).state := by
  rcases acceptBit_cases n bit d with ⟨-, h⟩ | ⟨-, _, -, h⟩ | ⟨-, -, h⟩ <;> rw [h, hst]
  · exact .next n
  · exact .next n
  · exact .abort _

theorem of_candidate {duration : Nat} {d : Decoder} (hst : d.state = .finalSync2) :
    TableRow duration d.state (candidate d).1.state := by
  rcases candidate_cases d _ rfl with ⟨-, -, h⟩ | ⟨-, -, h⟩ | ⟨-, h⟩ <;> rw [h, hst]
  · exact .abort _
  · exact .abort _
  · exact .nextFrame

theorem of_consumeClass {duration : Nat} (c : IntervalClass) (d : Decoder) :
    TableRow duration d.state (consumeClass c d).1.state := by
  rcases consumeClass_cases c d with ⟨-, h⟩ | ⟨-, h⟩ | ⟨n, bit, hst, -, h⟩ | ⟨hst, -, h⟩ | ⟨hst, -, h⟩ <;> rw [h]
  · exact .stay _
  · exact .abort _
  · exact .of_acceptBit bit hst
  · rw [hst]
    exact .finalShort
  · exact .of_candidate hst

theorem of_consumeDuration (duration : Nat) (d : Decoder) :
    TableRow duration d.state (consumeDuration duration d).1.state := by
  rcases consumeDuration_cases duration d with ⟨-, -, h⟩ | ⟨hst, hgap, h⟩ | ⟨-, h⟩ <;> rw [h]
  · exact .stay _
  · rw [hst]
    exact .sync hgap
  · exact .of_consumeClass _ d

/-- A skipped or discarded edge does not move the sequencer (rules R103, R104). -/
theorem of_edgeStep (tw : Nat) (now : Stamp) (d : Decoder) :
    TableRow (interval tw d.t2 d.t0) d.state (edgeStep tw now d).1.state := by
  rcases edgeStep_cases tw now d with ⟨-, h⟩ | ⟨-, -, -, h⟩ | ⟨-, -, h⟩ <;> rw [h]
  · exact .stay _
  · exact .stay _
  · exact .of_consumeDuration _ { d with t0 := d.t2, t1 := d.t2, t2 := now }

theorem of_exec_edge {now : Stamp} {s t : State} (h : exec (.edge now) s = .next t) :
    TableRow (duration s) s.decoder.state t.decoder.state := by
  simp only [exec, execEdge] at h
  split at h <;> cases h
  · exact .of_edgeStep _ _ _
  · exact .stay _

end TableRow

/-! ## Reception without listening -/

/-- With the decoder disabled, before a pending skip or in `SYNC_WAIT`, classified intervals change nothing. -/
theorem receive_of_not_listening (cs : List IntervalClass) {s : State}
    (h : s.enabled = false ∨ s.decoder.skip = true ∨ s.decoder.state = .syncWait) : s.receive cs = s := by
  rcases receive_cases cs s with ⟨henabled, hskip, hr⟩ | ⟨-, hr⟩ <;> rw [hr]
  have hst : s.decoder.state = .syncWait := by simpa [henabled, hskip] using h
  rw [consumeClasses_syncWait cs hst]
  rfl

/-! ## An edge of the receive line -/

/-- With the decoder enabled the operand of `EDGE` is the newest recorded edge, and the clock and the arrivals stay. -/
theorem exec_edge_next (now : Stamp) (s : State) : ∃ t, exec (.edge now) s = .next t ∧ t.clk = s.clk ∧
    t.inbox = s.inbox ∧ t.decoder.t2 = if s.enabled then wrap s.config.tw now else s.decoder.t2 := by
  cases he : s.enabled with
  | true => exact ⟨_, if_pos he, rfl, rfl, edgeStep_t2 _ _ _⟩
  | false => exact ⟨s, if_neg (by simp [he]), rfl, rfl, rfl⟩

end Sys2Proof.Machine

/-! ## The obligations -/

namespace Sys2Proof.Claims

open Sys2Proof.Machine Sys2Proof.Safety

/-- Settles O58. The clock moves no further than the end of the segment in progress, and every instruction keeps the
invariant (`exec_keeps_inv`). -/
theorem stepKeepsInvariant : Obligations.StepKeepsInvariant := by
  intro s t hs h
  rcases nextUp_cases s.quiet with ⟨-, -, hn⟩ | ⟨stop, hstop, hn, -⟩ | ⟨a, later, -, hn, hfirst⟩ <;>
    simp only [step, hn] at h
  · exact inv_of_next h hs
  · exact exec_keeps_inv h (inv_atClock_segmentEnd (s := s.quiet) hs hstop)
  · exact runStimulus_keeps_inv h (inv_takeArrival (s := s.quiet) later hs hfirst)

/-- Settles O27, row by row of the table; the row of a symbol state goes to the next one or, from 47, to 48. -/
theorem edgeTransitionsAreTheTable : Obligations.EdgeTransitionsAreTheTable := by
  intro now s t h
  have hrow := TableRow.of_exec_edge h
  generalize s.decoder.state = st, t.decoder.state = st' at hrow ⊢
  cases hrow with
  | stay => exact .inl rfl
  | abort => exact .inr (.inl rfl)
  | sync hgap => exact .inr (.inr (.inl ⟨rfl, hgap, rfl⟩))
  | next n =>
    rcases Nat.lt_or_ge (n.val + 1) 48 with hn | hn
    · exact .inr (.inr (.inr (.inl ⟨n, hn, rfl, nextSymbolState_of_lt hn⟩)))
    · have h47 : n = 47 := Fin.ext (by simp; omega)
      subst h47
      exact .inr (.inr (.inr (.inr (.inl ⟨rfl, nextSymbolState_last rfl⟩))))
  | finalShort => exact .inr (.inr (.inr (.inr (.inr (.inl ⟨rfl, rfl⟩)))))
  | nextFrame => exact .inr (.inr (.inr (.inr (.inr (.inr ⟨rfl, rfl⟩)))))

/-- Settles O34: each of the rows is a reception of its intervals. -/
theorem receptionRowsNeedListeningDecoder : Obligations.ReceptionRowsNeedListeningDecoder := by
  intro s h
  have hkeep (cs : List IntervalClass) : (.next (s.receive cs) : Host.Outcome State Fault Refusal) = .next s := by
    rw [receive_of_not_listening cs h]
  exact ⟨hkeep _, hkeep _, hkeep _, hkeep _, fun _ => hkeep _⟩

/-- Settles O48. Both statements of the reset values are the registers `RESET` writes. -/
theorem resetValuesOfRegisters : Obligations.ResetValuesOfRegisters :=
  ⟨fun _ _ _ => rfl, fun _ => ⟨rfl, rfl⟩⟩

/-- Settles O51. The sample is the clock as the arrival finds it, and already on `TW` bits. -/
theorem rxEdgeSamplesTheClock : Obligations.RxEdgeSamplesTheClock := by
  rintro s a later sample hinbox hfirst hwhat rfl
  have hstep : step s = exec (.edge (wrap s.config.tw a.time)) (s.quiet.takeArrival a later) := by
    rw [step_of_arrivalFirst hinbox hfirst, hwhat, runStimulus, now_takeArrival, quiet_config]
  obtain ⟨t, ht, hclk, hlater, ht2⟩ := exec_edge_next (wrap s.config.tw a.time) (s.quiet.takeArrival a later)
  exact ⟨hstep, t, hstep.trans ht, hclk, hlater, by simpa [wrap] using ht2⟩

/-- Settles O57: the state after reset is one whose registers have just been reset, at the clock value 0. -/
theorem resetMeetsInvariant : Obligations.ResetMeetsInvariant := by
  have hreset (config : Configuration) (htw : 14 ≤ config.tw) : Inv (State.resetWith config) :=
    inv_resetRegisters (s := State.resetWith config) htw (Nat.two_pow_pos _)
  exact ⟨hreset defaultConfiguration (by decide), hreset⟩

end Sys2Proof.Claims
end

section
/-!
PROOFS. The memory and the order of events (20_memory.md): the self-reception guard is lifted by `ENABLE` alone (O59), so
no edge reaches the decoder while `SEND_TELEGRAM` transmits (O60); a step is the decoded instruction of the word that
comes first (O50), and of an arrival and a segment end at one instant either may come first (O54).
-/

namespace Sys2Proof.Machine

open Sys2Proof.Safety Sys2Proof.Claims

/-! ## The word and the edge that arrive -/

theorem runWord_of_decode {w : Encoded} {i : Instr} (h : decode w = .ok i) (s : State) : runWord w s = exec i s := by
  simp only [runWord, h]

theorem decode_of_decodeTableWord {nbits w : Nat} {i : Instr} (h : decodeTableWord nbits w = some i) :
    decode (tableWord nbits w) = .ok i := by
  unfold decodeTableWord at h
  split at h
  case h_1 j hj => rw [hj, Option.some.inj h]
  case h_2 => cases h

/-- An edge runs `EDGE` with some timestamp, from the receive line or as a request. -/
theorem runStimulus_of_edge {x : Stimulus} (h : x = .rxEdge ∨ ∃ w now, x = .word w ∧ decode w = .ok (.edge now))
    (s : State) : ∃ now, runStimulus x s = exec (.edge now) s := by
  rcases h with rfl | ⟨w, now, rfl, hw⟩
  · exact ⟨s.now, rfl⟩
  · exact ⟨now, runWord_of_decode hw s⟩

/-- Rule R101: only an enabled decoder sees the edge. -/
theorem exec_edge_cases (now : Stamp) (s : State) :
    (s.enabled = true ∧ ∃ r, exec (.edge now) s = .next (s.withDecoder r)) ∨
    (s.enabled = false ∧ exec (.edge now) s = .next s) := by
  cases he : s.enabled with
  | true => exact .inl ⟨rfl, _, if_pos he⟩
  | false => exact .inr ⟨rfl, if_neg (by simp [he])⟩

/-! ## Which event comes first -/

/-- An arrival due at once, with the flag to go first, precedes every segment end. -/
theorem arrivalFirst_of_due {a : Arrival} {s : State} (htime : a.time = s.clk) (hflag : a.beforeTx = true) :
    ArrivalFirst a s := by
  intro t _
  rw [untilTime, htime, interval_self]
  exact (Nat.eq_zero_or_pos _).elim (fun h => .inr ⟨h.symm, hflag⟩) .inl

/-- A segment end is a value the clock shows. -/
theorem wrap_of_segmentEnd {tw : Nat} {e : Encoder} {t : Stamp} (h : segmentEnd tw e = some t) : wrap tw t = t := by
  obtain ⟨_, -, -, -, -, rfl, -⟩ := segmentEnd_eq_some h
  exact wrap_wrap _ _

/-- The step is `TX_STEP` when the segment end comes first. -/
theorem step_of_segmentEndFirst {t : Stamp} {s : State} (h : SegmentEndFirst t s) :
    step s = exec .txStep (s.quiet.atClock t) := by
  obtain ⟨hend, hfirst⟩ := h
  rcases nextUp_cases s.quiet with ⟨hnone, -, -⟩ | ⟨t', ht', hn, -⟩ | ⟨a, later, hinbox, -, horder⟩
  · cases hend.symm.trans hnone
  · cases hend.symm.trans ht'
    simp only [step, hn]
  · have harrival := horder t hend
    have hsegment := hfirst a later hinbox
    simp only [quiet_config, quiet_clk, untilTime] at harrival hsegment
    rcases hsegment with hlt | ⟨heq, hflag⟩
    · omega
    · obtain ⟨-, hflag'⟩ := harrival.resolve_left (by omega)
      simp [hflag] at hflag'

/-! ## What an arm's outcome inherits -/

theorem holds_of_next {P : State → Prop} {s t : State} (h : (.next s : Host.Outcome State Fault Refusal) = .next t)
    (hs : P s) : P t := by
  cases h
  exact hs

theorem holds_of_ite {P : State → Prop} {c : Prop} [Decidable c] {s u t : State}
    (h : (if c then .next s else .next u : Host.Outcome State Fault Refusal) = .next t) (hs : P s) (hu : P u) : P t := by
  split at h
  · exact holds_of_next h hs
  · exact holds_of_next h hu

/-! ## The self-reception guard -/

/-- A segment end after which the transmission goes on touches neither `txRestore` nor `enabled`. -/
theorem txAdvance_of_busy {now : Stamp} {s : State} (h : (txAdvance now s).encoder.txBusy = true) :
    s.encoder.txBusy = true ∧ (txAdvance now s).encoder.txRestore = s.encoder.txRestore ∧
    (txAdvance now s).enabled = s.enabled := by
  rcases txAdvance_cases now s with ⟨-, ht⟩ | ⟨-, -, ht⟩ | ⟨-, -, -, ht⟩ | ⟨-, -, -, ht⟩ <;> rw [ht] at h ⊢
  · exact ⟨h, rfl, rfl⟩
  · exact ⟨h, rfl, rfl⟩
  · exact ⟨h, rfl, rfl⟩
  · simp at h

theorem guarded_txAdvance (now : Stamp) {s : State} (h : Guarded s) : Guarded (txAdvance now s) := by
  intro hbusy hrestore
  obtain ⟨hbusy', hrestore', henabled⟩ := txAdvance_of_busy hbusy
  rw [henabled]
  exact h hbusy' (hrestore'.symm.trans hrestore)

theorem guarded_runSegments (k : Nat) {s : State} (h : Guarded s) : Guarded (runSegments k s) := by
  induction k generalizing s with
  | zero => exact h
  | succ k ih =>
    unfold runSegments
    split
    case h_1 stop _ => exact ih (guarded_txAdvance stop (s := { s with clk := stop }) h)
    case h_2 => exact h

theorem guarded_receive (cs : List IntervalClass) {s : State} (h : Guarded s) : Guarded (s.receive cs) := by
  rcases receive_cases cs s with ⟨-, -, hr⟩ | ⟨-, hr⟩ <;> rw [hr] <;> exact h

/-- Rules R46, R131, R141: `SEND_TELEGRAM` raises the guard, `SEND_CODE` and `RESET` leave nothing to guard, the end of a
transmission lifts the guard with it, and the rest but `ENABLE` neither set `enabled` nor start a transmission. -/
theorem exec_keeps_guarded {i : Instr} {s t : State} (hi : i ≠ .enable) (h : exec i s = .next t) (hs : Guarded s) :
    Guarded t := by
  cases i with
  | enable => exact absurd rfl hi
  | disable => exact holds_of_next (P := Guarded) h fun _ _ => rfl
  | sendTelegram => exact holds_of_ite (P := Guarded) h hs fun _ _ => rfl
  | sendCode => exact holds_of_ite (P := Guarded) h hs fun _ hrestore => by cases hrestore
  | reset => exact holds_of_next (P := Guarded) h fun hbusy => by cases hbusy
  | txStep => exact holds_of_ite (P := Guarded) h (guarded_txAdvance _ hs) hs
  | txSym0 | txSym1 | txSym2 | txSync => exact holds_of_ite (P := Guarded) h (guarded_runSegments _ hs) hs
  | rxTrit0 | rxTrit1 | rxTrit2 | rxIllegal | rxSync => exact holds_of_next (P := Guarded) h (guarded_receive _ hs)
  | edge | encodeTelegram | symv => exact holds_of_ite (P := Guarded) h hs hs
  | nop | reservedF | symReserved | setMinRepeats | cbDone | readState | unpackTelegram | codeToSymbols | isSameCode
  | getTelegram | getKaku | getKakuGroup | getAction | getBlokker | getElro | telegramWord | symLow | symHigh
  | symFloat => exact holds_of_next (P := Guarded) h hs

/-! ## A guarded transmission that only edges reach -/

/-- Only edges are to come; and as long as a transmission lasts it is one of `SEND_TELEGRAM`, the decoder is disabled and
has the registers `d`, and no event is on the port. -/
structure Deaf (d : Decoder) (s : State) : Prop where
  onlyEdges : OnlyEdges s.inbox
  whileBusy : s.encoder.txBusy = true →
    s.encoder.txRestore = true ∧ s.enabled = false ∧ s.decoder = d ∧ s.decoded = none

namespace Deaf

variable {d : Decoder} {s t : State}

theorem after_quiet (h : Deaf d s) : Deaf d s.quiet :=
  ⟨h.onlyEdges, fun hbusy =>
    have ⟨hrestore, henabled, hdecoder, _⟩ := h.whileBusy hbusy
    ⟨hrestore, henabled, hdecoder, rfl⟩⟩

/-- A transmission that goes on after the end of a segment was in progress before it. -/
theorem after_txAdvance (now : Stamp) (h : Deaf d s) : Deaf d (txAdvance now s) := by
  obtain ⟨-, hdecoder, -, hinbox, -, hdecoded, -⟩ := txAdvance_frame now s
  refine ⟨hinbox ▸ h.onlyEdges, fun hbusy => ?_⟩
  obtain ⟨hbusy', hrestore, henabled⟩ := txAdvance_of_busy hbusy
  rw [hrestore, henabled, hdecoder, hdecoded]
  exact h.whileBusy hbusy'

/-- An edge that an enabled decoder sees comes with no transmission in progress, and starts none. -/
theorem after_edge {now : Stamp} (h : Deaf d s) (hexec : exec (.edge now) s = .next t) : Deaf d t := by
  rcases exec_edge_cases now s with ⟨henabled, r, he⟩ | ⟨-, he⟩ <;> cases he.symm.trans hexec
  · refine ⟨h.onlyEdges, fun hbusy => ?_⟩
    obtain ⟨-, hdisabled, -⟩ := h.whileBusy hbusy
    simp [henabled] at hdisabled
  · exact h

theorem after_step (h : Deaf d s) (hstep : step s = .next t) : Deaf d t := by
  rcases step_cases s with ⟨-, -, hs⟩ | ⟨stop, -, hs⟩ | ⟨a, later, hinbox, hs⟩ <;> rw [hs] at hstep
  · cases hstep
    exact h.after_quiet
  · cases hstep
    exact after_txAdvance (s := s.quiet.atClock stop) stop ⟨h.onlyEdges, h.after_quiet.whileBusy⟩
  · have hedges : OnlyEdges (a :: later) := hinbox ▸ h.onlyEdges
    obtain ⟨hedge, hlater⟩ := List.forall_mem_cons.mp hedges
    obtain ⟨now, hrun⟩ := runStimulus_of_edge hedge (s.quiet.takeArrival a later)
    exact after_edge (s := s.quiet.takeArrival a later) ⟨hlater, h.after_quiet.whileBusy⟩ (hrun.symm.trans hstep)

theorem after_runSteps (k : Nat) (h : Deaf d s) (hrun : runSteps k s = .next t) : Deaf d t := by
  induction k generalizing s with
  | zero =>
    cases hrun
    exact h
  | succ k ih =>
    unfold runSteps at hrun
    split at hrun
    case h_1 s' hs' => exact ih (h.after_step hs') hrun
    case h_2 => cases hrun
    case h_3 => cases hrun

end Deaf

end Sys2Proof.Machine

/-! ## The obligations -/

namespace Sys2Proof.Claims

open Sys2Proof.Machine Sys2Proof.Safety

/-- Settles O59, instruction by instruction (`exec_keeps_guarded`). -/
theorem onlyEnableLiftsTheGuard : Obligations.OnlyEnableLiftsTheGuard :=
  fun _ _ _ hi hs h => exec_keeps_guarded hi h hs

/-- Settles O60. Every step keeps the decoder deaf, and without a transmission in progress edges start none. -/
theorem noSelfReceptionDuringSendTelegram : Obligations.NoSelfReceptionDuringSendTelegram := by
  intro k s t hedges _ hrestore henabled hdecoded hrun hbusy
  have hdeaf : Deaf s.decoder s := ⟨hedges, fun _ => ⟨hrestore, henabled, rfl, hdecoded⟩⟩
  obtain ⟨-, henabled', hdecoder, hdecoded'⟩ := (hdeaf.after_runSteps k hrun).whileBusy hbusy
  exact ⟨hdecoder, hdecoded', henabled'⟩

/-- Settles O50. A word placed by `withFetchWord` is due at once and so comes first. -/
theorem stepRunsDecodedInstruction : Obligations.StepRunsDecodedInstruction := by
  have hword (s : State) (a : Arrival) (later : List Arrival) (w : Encoded) (i : Instr) (hinbox : s.inbox = a :: later)
      (hfirst : ArrivalFirst a s) (hwhat : a.what = .word w) (hw : decode w = .ok i) :
      step s = exec i (s.quiet.takeArrival a later) := by
    rw [step_of_arrivalFirst hinbox hfirst, hwhat]
    exact runWord_of_decode hw _
  refine ⟨hword, fun s nbits w i hi => ?_⟩
  exact hword (s.withFetchWord nbits w) ⟨s.clk, true, .word (tableWord nbits w)⟩ s.inbox _ i rfl
    (arrivalFirst_of_due rfl rfl) rfl (decode_of_decodeTableWord hi)

/-- Settles O54. At equal times the flag alone decides which of the two comes first. -/
theorem simultaneousEventsTakeEitherOrder : Obligations.SimultaneousEventsTakeEitherOrder := by
  intro s t x i later hend hx
  have ht := wrap_of_segmentEnd hend
  refine ⟨fun hinbox => ?_, fun hinbox => ?_⟩
  · have hfirst : ArrivalFirst ⟨t, true, x⟩ s := fun t' ht' => by
      rw [Option.some.inj (hend.symm.trans ht')]
      exact .inr ⟨rfl, rfl⟩
    have hclock : s.quiet.takeArrival ⟨t, true, x⟩ later =
        { s with result := .none, decoded := none, clk := t, inbox := later } := by
      rw [State.takeArrival, quiet_config, ht]
      rfl
    rw [step_of_arrivalFirst hinbox hfirst, ← hclock]
    rcases hx with ⟨rfl, rfl⟩ | ⟨w, rfl, hw⟩
    · rw [runStimulus, now_takeArrival, quiet_config, ht]
    · exact runWord_of_decode hw _
  · refine step_of_segmentEndFirst ⟨hend, fun a later' ha => ?_⟩
    cases hinbox.symm.trans ha
    exact .inr ⟨rfl, rfl⟩

end Sys2Proof.Claims
end

section
/-!
PROOFS. The encodings (30_encoding.md): decode and encode agree (O1, O2), the sixteen operation codes (O3), words
written out from the tables (O4), and the line patterns (O5).
-/

namespace Sys2Proof

open Sys2Proof.Machine

/-! ## Decode after encode -/

/-- An operand that is written into the low bits of a port is read from there (rule R73). -/
theorem extractLsb'_setWidth_self {n : Nat} (v : BitVec n) (h : n ≤ 32) : (v.setWidth 32).extractLsb' 0 n = v := by
  rw [BitVec.extractLsb'_setWidth_of_le (by omega), BitVec.extractLsb'_eq_self]

theorem decode_request_setMinRepeats (a b c : Word) :
    decode (request 0x3#4 a b c) = .ok (.setMinRepeats (a.extractLsb' 0 8)) := rfl

theorem decode_request_encodeTelegram (a b c : Word) :
    decode (request 0x8#4 a b c) = .ok (.encodeTelegram (a.extractLsb' 0 24) b c) := rfl

theorem decode_request_codeToSymbols (a b c : Word) :
    decode (request 0xA#4 a b c) = .ok (.codeToSymbols (a.extractLsb' 0 20)) := rfl

theorem decode_request_edge (a b c : Word) : decode (request 0xE#4 a b c) = .ok (.edge a.toNat) := rfl

/-- Rules R72, R73: a request's operands come back, a timestamp if its 32 bits suffice. -/
theorem decode_encode_of_op {i : Instr} (hwf : i.WellFormed) (h : i.format = .op) : decode (encode i) = .ok i := by
  cases i with
  | setMinRepeats v => rw [encode, decode_request_setMinRepeats, extractLsb'_setWidth_self v (by decide)]
  | encodeTelegram v p r => rw [encode, decode_request_encodeTelegram, extractLsb'_setWidth_self v (by decide)]
  | codeToSymbols c => rw [encode, decode_request_codeToSymbols, extractLsb'_setWidth_self c (by decide)]
  | edge now =>
    have hnow : now < 2 ^ 32 := of_decide_eq_true hwf
    rw [encode, decode_request_edge, BitVec.toNat_ofNat, Nat.mod_eq_of_lt hnow]
  | nop | enable | disable | cbDone | readState | sendTelegram | sendCode | unpackTelegram | isSameCode | getTelegram
  | reset | reservedF => rfl
  | _ => cases h

@[simp] theorem getElem_tupleBit (on : Bool) : (tupleBit on)[0] = on := by cases on <;> rfl

/-- Rule R73: every field of a tuple is read at the place it is written to, above the fields that stand below it. -/
theorem decode_encode_of_tuple {i : Instr} (h : i.format = .tuple) : decode (encode i) = .ok i := by
  cases i with
  | getKaku | getKakuGroup | getAction | getBlokker | getElro =>
    simp (disch := decide) only [encode, decode, decodeTuple, BitVec.getLsbD_append,
      BitVec.extractLsb'_append_eq_of_le, BitVec.extractLsb'_append_eq_of_add_le]
    simp
  | _ => cases h

theorem decode_tw32 (w : Word) :
    decode (.tw32 w) = .ok (.telegramWord (periodField w) (repeatField w) (codeField w)) := rfl

/-- Rule R65: a pattern that is none of the three legal ones is illegal as it stands. -/
theorem decodeAir_of_illegal : ∀ p : BitVec 4, legalPattern p = false → decodeAir p = .rxIllegal p := by decide

/-! ## Encode after decode -/

/-- Rules R72, R76: the sixteen operations, and a timestamp of 32 bits. -/
theorem decodeRequest_op (q : Request) : (decodeRequest q).WellFormed ∧ (decodeRequest q).format = .op := by
  unfold decodeRequest
  split
  case h_15 => exact ⟨decide_eq_true q.a.isLt, rfl⟩
  all_goals exact ⟨rfl, rfl⟩

theorem decodeTuple_tuple (a b c : Word) : (decodeTuple a b c).WellFormed ∧ (decodeTuple a b c).format = .tuple := by
  unfold decodeTuple
  split <;> exact ⟨rfl, rfl⟩

/-- Rule R55: the three fields are the whole word. -/
theorem assembleWord_fields (w : Word) : assembleWord (periodField w) (repeatField w) (codeField w) = w := by
  have hp : (periodField w).toNat = w.toNat / 2 ^ 23 % 2 ^ 9 := by
    rw [periodField, BitVec.extractLsb'_toNat, Nat.shiftRight_eq_div_pow]
  have hr : (repeatField w).toNat = w.toNat / 2 ^ 20 % 2 ^ 3 := by
    rw [repeatField, BitVec.extractLsb'_toNat, Nat.shiftRight_eq_div_pow]
  have hc : (codeField w).toNat = w.toNat % 2 ^ 20 := by
    rw [codeField, BitVec.extractLsb'_toNat, Nat.shiftRight_zero]
  apply BitVec.eq_of_toNat_eq
  rw [assembleWord_toNat, hp, hr, hc]
  have hw := w.isLt
  omega

theorem decodeSym_recovers : ∀ v : BitVec 2,
    (decodeSym v).WellFormed ∧ (decodeSym v).format = .sym ∧ encode (decodeSym v) = .sym v := by decide

theorem decodeAir_recovers : ∀ p : BitVec 4,
    (decodeAir p).WellFormed ∧ (decodeAir p).format = .air4 ∧ encode (decodeAir p) = .air4 p := by decide

/-- Rule R61: the three patterns of 8 periods. -/
theorem decodeLine8_recovers {p : BitVec 8} {i : Instr} (h : decodeLine8 p = .ok i) :
    i.WellFormed ∧ i.format = .line ∧ encode i = .line8 p := by
  unfold decodeLine8 at h
  split at h <;> cases h <;> exact ⟨rfl, rfl, congrArg Encoded.line8 (BitVec.eq_of_toNat_eq ‹_›).symm⟩

theorem decodeLine32_recovers {p : Word} {i : Instr} (h : decodeLine32 p = .ok i) :
    i.WellFormed ∧ i.format = .line ∧ encode i = .line32 p := by
  unfold decodeLine32 at h
  split at h <;> cases h
  case isTrue hp => exact ⟨rfl, rfl, congrArg Encoded.line32 hp.symm⟩

end Sys2Proof

/-! ## The obligations -/

namespace Sys2Proof.Claims

open Sys2Proof.Machine

/-- Settles O1. Requests and tuples give their operands back, a telegram word its three fields, an illegal pattern is
no legal one, and the other rows hold no operand to lose. -/
theorem decodeOfEncodeIsInstruction : Obligations.DecodeOfEncodeIsInstruction := by
  intro i hwf
  cases i with
  | nop | enable | disable | setMinRepeats | cbDone | readState | sendTelegram | sendCode | encodeTelegram
  | unpackTelegram | codeToSymbols | isSameCode | getTelegram | reset | edge | reservedF =>
    exact decode_encode_of_op hwf rfl
  | getKaku | getKakuGroup | getAction | getBlokker | getElro => exact decode_encode_of_tuple rfl
  | telegramWord p r c =>
    rw [show encode (.telegramWord p r c) = .tw32 (assembleWord p r c) from rfl, decode_tw32,
      periodField_assembleWord, repeatField_assembleWord, codeField_assembleWord]
  | rxIllegal p =>
    have hp : (!legalPattern p) = true := hwf
    exact congrArg Except.ok (decodeAir_of_illegal p (by simpa using hp))
  | txStep | symLow | symHigh | symFloat | symReserved | symv | rxTrit0 | rxTrit1 | rxTrit2 | rxSync | txSym0 | txSym1
  | txSym2 | txSync => rfl

/-- Settles O2, format by format. -/
theorem decodedWordIsRecovered : Obligations.DecodedWordIsRecovered := by
  intro w i h
  cases w with
  | op q =>
    cases h
    obtain ⟨hwf, hf⟩ := decodeRequest_op q
    exact ⟨hwf, hf, fun hne _ => absurd rfl hne⟩
  | tuple a b c =>
    cases h
    obtain ⟨hwf, hf⟩ := decodeTuple_tuple a b c
    exact ⟨hwf, hf, fun _ hne => absurd rfl hne⟩
  | tw32 w =>
    cases h
    exact ⟨rfl, rfl, fun _ _ => congrArg Encoded.tw32 (assembleWord_fields w)⟩
  | sym v =>
    cases h
    obtain ⟨hwf, hf, hw⟩ := decodeSym_recovers v
    exact ⟨hwf, hf, fun _ _ => hw⟩
  | air4 p =>
    cases h
    obtain ⟨hwf, hf, hw⟩ := decodeAir_recovers p
    exact ⟨hwf, hf, fun _ _ => hw⟩
  | line8 p =>
    obtain ⟨hwf, hf, hw⟩ := decodeLine8_recovers h
    exact ⟨hwf, hf, fun _ _ => hw⟩
  | line32 p =>
    obtain ⟨hwf, hf, hw⟩ := decodeLine32_recovers h
    exact ⟨hwf, hf, fun _ _ => hw⟩
  | internal | symv24 | airsync =>
    cases h
    exact ⟨rfl, rfl, fun _ _ => rfl⟩

/-- Settles O3. A request is read in its own format, so it is never the internal `TX_STEP`. -/
theorem operationCodesSelectOperations : Obligations.OperationCodesSelectOperations := by
  refine ⟨fun a b c => ⟨rfl, rfl, rfl, decode_request_setMinRepeats a b c, rfl, rfl, rfl, rfl,
    decode_request_encodeTelegram a b c, rfl, decode_request_codeToSymbols a b c, rfl, rfl, rfl,
    decode_request_edge a b c, rfl⟩, fun q h => ?_⟩
  obtain ⟨-, hf⟩ := decodeRequest_op q
  rw [Except.ok.inj h] at hf
  cases hf

/-- Settles O4: each word is written out, so reading it is a computation. -/
theorem writtenWordsDecode : Obligations.WrittenWordsDecode := ⟨rfl, rfl, rfl, rfl, rfl, rfl, rfl, rfl⟩

/-- Settles O5, one row of the segment table after the other. -/
theorem linePatternsAreSegments : Obligations.LinePatternsAreSegments := ⟨rfl, rfl, rfl, rfl⟩

end Sys2Proof.Claims
end

section
/-!
PROOFS. The transmission rows run their segments one after another: the 8 periods of a symbol (O42), the 32 of the
terminating sync (O43). The control operations (O46) and the data rows (O49).
-/

namespace Sys2Proof.Machine

/-! ## One segment after another -/

/-- The clock `n` periods after the start of the segment in progress. -/
def periodsOn (n : Nat) (s : State) : Stamp :=
  wrap s.config.tw (s.encoder.txSegStart + n * s.encoder.txPeriod.toNat)

/-- The machine `n` periods on, where segment `seg` of the symbol in progress begins (rules R134, R136). -/
def State.atSegment (seg : BitVec 2) (n : Nat) (s : State) : State :=
  { s with
    clk := periodsOn n s
    encoder := { s.encoder with txSegStart := periodsOn n s, txSeg := seg, txLevel := segLevel seg } }

/-- Periods after one another add up, whatever the clock shows in between. -/
theorem periodsOn_atSegment (seg : BitVec 2) (n len : Nat) (s : State) :
    periodsOn len (s.atSegment seg n) = periodsOn (n + len) s := by
  simp only [periodsOn, State.atSegment, wrap, Nat.mod_add_mod]
  congr 1
  ring

/-- Rules R136, R137: a segment of the table runs to its end. -/
theorem runSegments_succ {s : State} {len : Nat} (k : Nat) (htw : 14 ≤ s.config.tw) (hbusy : s.encoder.txBusy = true)
    (hrow : (segmentRow s.encoder)[s.encoder.txSeg.toNat]? = some len) :
    runSegments (k + 1) s = runSegments k (txAdvance (periodsOn len s) (s.atClock (periodsOn len s))) := by
  have hlen : segmentMicros s.encoder = some (len * s.encoder.txPeriod.toNat) := by rw [segmentMicros, hrow]; rfl
  rw [runSegments, segmentEnd_of_busy htw hbusy hlen]
  rfl

/-- Rule R136: after a segment that is not the last of its symbol comes the next one. -/
theorem runSegments_mid {s : State} {len : Nat} (k : Nat) (htw : 14 ≤ s.config.tw) (hbusy : s.encoder.txBusy = true)
    (hrow : (segmentRow s.encoder)[s.encoder.txSeg.toNat]? = some len) (hlast : lastSegment s.encoder = false) :
    runSegments (k + 1) s = runSegments k (s.atSegment (s.encoder.txSeg + 1#2) len) := by
  rw [runSegments_succ k htw hbusy hrow]
  rcases txAdvance_cases (periodsOn len s) (s.atClock (periodsOn len s)) with ⟨-, h⟩ | ⟨h, -⟩ | ⟨h, -⟩ | ⟨h, -⟩
  case inl => rw [h]; rfl
  all_goals exact absurd (hlast.symm.trans h) (by decide)

/-- The same for a segment that follows others of its symbol. -/
theorem runSegments_atSegment_mid {s : State} {seg : BitVec 2} {n len : Nat} (k : Nat) (htw : 14 ≤ s.config.tw)
    (hbusy : s.encoder.txBusy = true) (hrow : (segmentRow s.encoder)[seg.toNat]? = some len)
    (hlast : lastSegment { s.encoder with txSeg := seg } = false) :
    runSegments (k + 1) (s.atSegment seg n) = runSegments k (s.atSegment (seg + 1#2) (n + len)) := by
  rw [runSegments_mid (s := s.atSegment seg n) k htw hbusy hrow hlast, State.atSegment, periodsOn_atSegment]
  rfl

/-- The last of some segments ends where their lengths lead. -/
theorem runSegments_atSegment_one {s : State} {seg : BitVec 2} {n len : Nat} (htw : 14 ≤ s.config.tw)
    (hbusy : s.encoder.txBusy = true) (hrow : (segmentRow s.encoder)[seg.toNat]? = some len) :
    runSegments 1 (s.atSegment seg n) = txAdvance (periodsOn (n + len) s) (s.atSegment seg (n + len)) := by
  rw [runSegments_succ (s := s.atSegment seg n) 0 htw hbusy hrow, periodsOn_atSegment]
  rfl

/-! ## A whole symbol -/

/-- The segments of a symbol before its last. -/
theorem lastSegment_of_symbol {e : Encoder} {seg : BitVec 2} (hsym : e.txSym.toNat < 12) (hseg : seg ≠ 3#2) :
    lastSegment { e with txSeg := seg } = false := by
  have h12 : e.txSym ≠ 12#4 := fun h => by simp [h] at hsym
  simp [lastSegment, hseg, h12]

/-- Rules R134, R136: the four segments of a symbol, one after another; then the next symbol or the sync begins. -/
theorem runSegments_symbol {s : State} {a b c d : Nat} (htw : 14 ≤ s.config.tw) (hbusy : s.encoder.txBusy = true)
    (hsym : s.encoder.txSym.toNat < 12) (hseg : s.encoder.txSeg = 0#2) (hrow : segmentRow s.encoder = [a, b, c, d])
    (h8 : a + b + c + d = 8) :
    runSegments 4 s = { s with
      clk := periodsOn 8 s
      encoder := { s.encoder with
        txSegStart := periodsOn 8 s, txSym := s.encoder.txSym + 1#4, txSeg := 0#2, txLevel := true } } := by
  have hmid (seg : BitVec 2) (h : seg ≠ 3#2) := lastSegment_of_symbol (e := s.encoder) (seg := seg) hsym h
  calc runSegments 4 s
    _ = runSegments 3 (s.atSegment 1#2 a) := by
      rw [runSegments_mid (len := a) 3 htw hbusy (by rw [hseg, hrow]; rfl) (hmid _ (by rw [hseg]; decide)), hseg]
      rfl
    _ = runSegments 2 (s.atSegment 2#2 (a + b)) :=
      runSegments_atSegment_mid 2 htw hbusy (by rw [hrow]; rfl) (hmid _ (by decide))
    _ = runSegments 1 (s.atSegment 3#2 (a + b + c)) :=
      runSegments_atSegment_mid 1 htw hbusy (by rw [hrow]; rfl) (hmid _ (by decide))
    _ = txAdvance (periodsOn 8 s) (s.atSegment 3#2 8) := by
      rw [runSegments_atSegment_one (len := d) htw hbusy (by rw [hrow]; rfl), h8]
    _ = _ := by
      rcases txAdvance_cases (periodsOn 8 s) (s.atSegment 3#2 8) with ⟨h, -⟩ | ⟨-, -, h⟩ | ⟨-, h, -⟩ | ⟨-, h, -⟩
      · exact absurd h (by simp [lastSegment_iff, State.atSegment, hsym])
      · rw [h]; rfl
      · exact absurd hsym h
      · exact absurd hsym h

/-- The transmission row of a symbol value, and the value (rule R61). -/
def SendsSymbol (i : Instr) (sym : BitVec 2) : Prop :=
  (i = .txSym0 ∧ sym = 0#2) ∨ (i = .txSym1 ∧ sym = 1#2) ∨ (i = .txSym2 ∧ sym = 2#2)

/-- A symbol has four segments of 8 periods together (rules R61, R134). -/
theorem symbolLens_of_sendsSymbol {i : Instr} {sym : BitVec 2} (h : SendsSymbol i sym) :
    ∃ a b c d, symbolLens sym = [a, b, c, d] ∧ a + b + c + d = 8 := by
  rcases h with ⟨-, rfl⟩ | ⟨-, rfl⟩ | ⟨-, rfl⟩
  · exact ⟨1, 3, 1, 3, rfl, rfl⟩
  · exact ⟨3, 1, 3, 1, rfl, rfl⟩
  · exact ⟨1, 3, 3, 1, rfl, rfl⟩

theorem exec_of_sendsSymbol {i : Instr} {sym : BitVec 2} (h : SendsSymbol i sym) (s : State) :
    exec i s = if atSymbol sym s.encoder then .next (runSegments 4 s) else .next s := by
  rcases h with ⟨rfl, rfl⟩ | ⟨rfl, rfl⟩ | ⟨rfl, rfl⟩ <;> rfl

theorem atSymbol_iff (sym : BitVec 2) (e : Encoder) :
    atSymbol sym e = true ↔
      e.txBusy = true ∧ e.txSym.toNat < 12 ∧ e.txSeg = 0#2 ∧ symAt e.txSymbols e.txSym.toNat = sym := by
  simp [atSymbol, and_assoc]

/-! ## The sync -/

theorem atSync_iff (e : Encoder) : atSync e = true ↔ e.txBusy = true ∧ e.txSym = 12#4 ∧ e.txSeg = 0#2 := by
  simp [atSync, and_assoc]

/-- Rules R134, R136: the short part and the gap of the sync, up to its last `TX_STEP`. -/
theorem runSegments_sync {s : State} (htw : 14 ≤ s.config.tw) (hbusy : s.encoder.txBusy = true)
    (hsym : s.encoder.txSym = 12#4) (hseg : s.encoder.txSeg = 0#2) :
    runSegments 2 s = txAdvance (periodsOn 32 s) (s.atSegment 1#2 32) := by
  have hrow : segmentRow s.encoder = [1, 31] := by simp [segmentRow, hsym, syncLens]
  calc runSegments 2 s
    _ = runSegments 1 (s.atSegment 1#2 1) := by
      rw [runSegments_mid (len := 1) 1 htw hbusy (by rw [hseg, hrow]; rfl) (by simp [lastSegment, hsym, hseg]), hseg]
      rfl
    _ = _ := runSegments_atSegment_one (n := 1) (len := 31) htw hbusy (by rw [hrow]; rfl)

/-- Rule R136: after the sync of a frame that is not the last the next frame begins. -/
theorem txAdvance_sync_nextFrame (now : Stamp) {s : State} (hsym : s.encoder.txSym = 12#4)
    (hseg : s.encoder.txSeg = 1#2) (hmore : s.encoder.txRep.toNat + 1 < s.encoder.txRepeats.toNat) :
    txAdvance now s = { s with encoder := nextFrame { s.encoder with txSegStart := now } } := by
  rcases txAdvance_cases now s with ⟨h, -⟩ | ⟨-, h, -⟩ | ⟨-, -, -, h⟩ | ⟨-, -, h, -⟩
  · exact absurd ((lastSegment_iff _).mpr (.inr ⟨hsym, hseg⟩)) (by simp [h])
  · simp [hsym] at h
  · exact h
  · exact absurd hmore h

/-- Rule R139: after the sync of the last frame the transmission is over. -/
theorem txAdvance_sync_finish (now : Stamp) {s : State} (hsym : s.encoder.txSym = 12#4) (hseg : s.encoder.txSeg = 1#2)
    (hdone : s.encoder.txRepeats.toNat ≤ s.encoder.txRep.toNat + 1) :
    txAdvance now s = { s with
      encoder := finishTransmission { s.encoder with txSegStart := now }
      enabled := if s.encoder.txRestore then true else s.enabled } := by
  have henabled : (if s.encoder.txRestore then true else s.enabled) = (s.encoder.txRestore || s.enabled) := by
    cases s.encoder.txRestore <;> rfl
  rcases txAdvance_cases now s with ⟨h, -⟩ | ⟨-, h, -⟩ | ⟨-, -, h, -⟩ | ⟨-, -, -, h⟩
  · exact absurd ((lastSegment_iff _).mpr (.inr ⟨hsym, hseg⟩)) (by simp [h])
  · simp [hsym] at h
  · omega
  · rw [h, henabled]

/-! ## Data -/

/-- Rule R55: the word as the sum of its fields at their places. -/
theorem assembleWord_eq_ofNat (p : BitVec 9) (r : BitVec 3) (c : BitVec 20) :
    assembleWord p r c = BitVec.ofNat 32 (p.toNat * 2 ^ 23 + r.toNat * 2 ^ 20 + c.toNat) := by
  apply BitVec.eq_of_toNat_eq
  have hp := p.isLt
  have hr := r.isLt
  have hc := c.isLt
  rw [assembleWord_toNat, BitVec.toNat_ofNat]
  omega

/-- Rules R57, R66: a vector is the packing of its own symbols, and turned away with a reserved one. -/
theorem execSymv_eq (v : BitVec 24) (s : State) :
    execSymv v s = if hasReservedSymbol v then .next s else .next (s.withResult (.word (v.setWidth 32))) := by
  rw [execSymv, packDigits_symDigits]

end Sys2Proof.Machine

/-! ## The obligations -/

namespace Sys2Proof.Claims

open Sys2Proof.Machine

/-- Settles O42: four segments of 8 periods together at the first segment of the row's symbol, nothing elsewhere. -/
theorem sentSymbolTakesEightPeriods : Obligations.SentSymbolTakesEightPeriods := by
  intro s i sym hi
  rw [exec_of_sendsSymbol hi]
  refine ⟨fun htw hbusy hsym hseg hvalue => ?_, fun hother => if_neg ?_⟩
  · obtain ⟨a, b, c, d, hlens, h8⟩ := symbolLens_of_sendsSymbol hi
    have hrow : segmentRow s.encoder = [a, b, c, d] := by rw [segmentRow, if_pos hsym, hvalue, hlens]
    rw [if_pos ((atSymbol_iff _ _).mpr ⟨hbusy, hsym, hseg, hvalue⟩),
      runSegments_symbol htw hbusy hsym hseg hrow h8]
    rfl
  · rw [atSymbol_iff]
    rintro ⟨hbusy, hsym, hseg, hvalue⟩
    rcases hother with h | h | h | h
    · simp [hbusy] at h
    · omega
    · exact h hseg
    · exact h hvalue

/-- Settles O43: two segments of 32 periods together at the first segment of the sync, nothing elsewhere. -/
theorem sentSyncTakes32Periods : Obligations.SentSyncTakes32Periods := by
  intro s
  have hexec : exec .txSync s = if atSync s.encoder then .next (runSegments 2 s) else .next s := rfl
  refine ⟨fun htw hbusy hsym hseg => ?_, fun hother => hexec.trans (if_neg ?_)⟩
  · rw [hexec, if_pos ((atSync_iff _).mpr ⟨hbusy, hsym, hseg⟩), runSegments_sync htw hbusy hsym hseg]
    refine ⟨fun hmore => ?_, fun hdone => ?_⟩
    · rw [txAdvance_sync_nextFrame (s := s.atSegment 1#2 32) _ hsym rfl hmore]
      rfl
    · rw [txAdvance_sync_finish (s := s.atSegment 1#2 32) _ hsym rfl hdone]
      rfl
  · rw [atSync_iff]
    rintro ⟨hbusy, hsym, hseg⟩
    rcases hother with h | h | h
    · simp [hbusy] at h
    · exact h hsym
    · exact h hseg

/-- Settles O46. The codes are those of O3, and each of the five rows is one write. -/
theorem controlOperationsWriteOneRegister : Obligations.ControlOperationsWriteOneRegister :=
  ⟨fun a b c => ⟨rfl, rfl, rfl, decode_request_setMinRepeats a b c, rfl⟩, fun _ _ => ⟨rfl, rfl, rfl, rfl, rfl⟩⟩

/-- Settles O49. The word of three fields is their sum in place, and reading a legal vector's symbols and packing them
again gives the vector. -/
theorem dataRowsGiveTheirValue : Obligations.DataRowsGiveTheirValue := by
  refine ⟨fun p r c s => ?_, fun s => ⟨rfl, rfl, rfl, rfl⟩, fun v s => ?_⟩
  · rw [← assembleWord_eq_ofNat]
    rfl
  · have hexec : exec (.symv v) s = _ := execSymv_eq v s
    rw [hexec]
    refine ⟨fun hlegal => ?_, fun hillegal => if_pos ?_⟩
    · rw [if_neg (Bool.eq_false_iff.mp ((hasReservedSymbol_eq_false v).mpr hlegal))]
      rfl
    · exact Bool.eq_true_of_not_eq_false fun h => hillegal ((hasReservedSymbol_eq_false v).mp h)

end Sys2Proof.Claims
end

section
/-!
PROOFS. The received patterns: a symbol's four intervals (O32), the terminating sync (O33), and twelve symbols, which
give their code (O35).
-/

namespace Sys2Proof.Machine

open Sys2Proof.Claims

/-! ## Classified intervals one after another -/

theorem consumeClasses_cons {c : IntervalClass} {cs : List IntervalClass} {d d' : Decoder}
    (h : consumeClass c d = (d', none)) : consumeClasses (c :: cs) d = consumeClasses cs d' := by
  rw [consumeClasses, List.foldl_cons, h]
  rfl

theorem consumeClasses_append {cs cs' : List IntervalClass} {d d' : Decoder} (h : consumeClasses cs d = (d', none)) :
    consumeClasses (cs ++ cs') d = consumeClasses cs' d' := by
  rw [consumeClasses] at h
  rw [consumeClasses, List.foldl_append, h]
  rfl

theorem consumeClasses_singleton (c : IntervalClass) (d : Decoder) : consumeClasses [c] d = consumeClass c d :=
  Prod.ext rfl (Option.or_none ..)

/-- Enabled and with no skip pending, the decoder consumes the classes it receives (assumption 7). -/
theorem receive_of_listening {s : State} (cs : List IntervalClass) (henabled : s.enabled = true)
    (hskip : s.decoder.skip = false) : s.receive cs = s.withDecoder (consumeClasses cs s.decoder) := by
  rcases receive_cases cs s with ⟨-, -, h⟩ | ⟨h, -⟩
  · exact h
  · simp [henabled, hskip] at h

theorem receive_of_consumeClasses {s : State} {cs : List IntervalClass} {d : Decoder} (henabled : s.enabled = true)
    (hskip : s.decoder.skip = false) (h : consumeClasses cs s.decoder = (d, none)) :
    s.receive cs = { s with decoder := d } := by
  rw [receive_of_listening cs henabled hskip, h]
  rfl

/-! ## The four intervals of a symbol -/

/-- The class of an interval that stands for a bit (rules R59, R109). -/
def bitClass (b : Bool) : IntervalClass := if b then .long else .short

/-- The bits of a received pattern, in the order of reception (rule R59). -/
def patternBits (p : BitVec 4) : List Bool := [p.getLsbD 3, p.getLsbD 2, p.getLsbD 1, p.getLsbD 0]

theorem patternClasses_eq (p : BitVec 4) : patternClasses p = (patternBits p).map bitClass := rfl

theorem consumeClass_bit {n : Fin 48} {d : Decoder} (b : Bool) (h : d.state = .symbol n) :
    consumeClass (bitClass b) d = (acceptBit n b d, none) := by
  cases b <;> simp [consumeClass, bitClass, h]

/-- Rule R109: what a new bit makes of the shift pattern. -/
def shiftIn (r : BitVec 4) (b : Bool) : BitVec 4 := (r <<< 1) ||| (if b then 1#4 else 0#4)

theorem shiftBit_eq (b : Bool) (d : Decoder) : shiftBit b d = { d with receivedBit := shiftIn d.receivedBit b } := rfl

/-- Four bits shifted in leave nothing of what was there before. -/
theorem shiftIn_patternBits : ∀ r p : BitVec 4, (patternBits p).foldl shiftIn r = p := by decide

theorem acceptBit_mid {n : Fin 48} (b : Bool) (d : Decoder) (hmid : n.val % 4 ≠ 3) :
    acceptBit n b d = advance n (shiftBit b d) := by
  rcases acceptBit_cases n b d with ⟨-, h⟩ | ⟨hlast, -⟩ | ⟨hlast, -⟩
  · exact h
  · exact absurd hlast hmid
  · exact absurd hlast hmid

/-- Rules R109, R111: an interval that is not the fourth of its symbol is shifted in. -/
theorem consumeClass_bit_mid {n : Nat} {d : Decoder} (b : Bool) (hn : n + 1 < 48)
    (h : d.state = .symbol ⟨n, by omega⟩) (hmid : n % 4 ≠ 3) :
    consumeClass (bitClass b) d =
      ({ d with receivedBit := shiftIn d.receivedBit b, state := .symbol ⟨n + 1, hn⟩ }, none) := by
  rw [consumeClass_bit b h, acceptBit_mid b d hmid, advance, nextSymbolState_of_lt hn]
  rfl

/-- Rule R110: at the fourth interval the pattern is checked. -/
theorem acceptBit_last {n : Fin 48} (b : Bool) (d : Decoder) (hlast : n.val % 4 = 3) :
    acceptBit n b d =
      match patternTrit (shiftIn d.receivedBit b) with
      | some t => advance n (accumulate t (shiftBit b d))
      | none => abort (shiftBit b d) := by
  rcases acceptBit_cases n b d with ⟨hmid, -⟩ | ⟨-, t, ht, ha⟩ | ⟨-, hn, ha⟩
  · exact absurd hlast hmid
  · rw [ha, show patternTrit (shiftIn d.receivedBit b) = some t from ht]
  · rw [ha, show patternTrit (shiftIn d.receivedBit b) = none from hn]

/-- The four intervals of a pattern at the start of a symbol: three are shifted in, at the fourth the pattern stands. -/
theorem consumeClasses_pattern {k : Fin 12} {d : Decoder} (p : BitVec 4) (h : d.state = symbolStart k) :
    consumeClasses (patternClasses p) d =
      (match patternTrit p with
        | some t => { d with
          receivedBit := p, receivedCode := d.receivedCode * 3#32 + BitVec.ofNat 32 t.toNat, state := afterSymbol k }
        | none => { d with receivedBit := p, state := .syncWait }, none) := by
  have hp := shiftIn_patternBits d.receivedBit p
  rw [patternBits, List.foldl_cons, List.foldl_cons, List.foldl_cons, List.foldl_cons, List.foldl_nil] at hp
  rw [patternClasses_eq, patternBits, List.map_cons, List.map_cons, List.map_cons, List.map_singleton,
    consumeClasses_cons (consumeClass_bit_mid _ (by omega) h (by omega)),
    consumeClasses_cons (consumeClass_bit_mid (n := 4 * k.val + 1) _ (by omega) rfl (by omega)),
    consumeClasses_cons (consumeClass_bit_mid (n := 4 * k.val + 2) _ (by omega) rfl (by omega)),
    consumeClasses_singleton, consumeClass_bit (n := ⟨4 * k.val + 3, by omega⟩) _ rfl,
    acceptBit_last _ _ (by simp only []; omega), hp]
  cases patternTrit p with
  | some t => simp only [advance, accumulate, shiftBit_eq, hp]; rfl
  | none => simp only [abort, shiftBit_eq, hp]

/-- The pattern of a trit (rules R59, R110). -/
def tritPattern : Trit → BitVec 4
  | .low => 0b0101#4
  | .high => 0b1010#4
  | .float => 0b0110#4

theorem patternTrit_tritPattern (t : Trit) : patternTrit (tritPattern t) = some t := by cases t <;> rfl

/-- The reception row of a trit is the reception of its pattern. -/
theorem exec_rxRow (t : Trit) (s : State) : exec (rxRow t) s = .next (s.receive (patternClasses (tritPattern t))) := by
  cases t <;> rfl

/-- The pattern of a trit at the start of a symbol appends the trit (rules R110, R111). -/
theorem consumeClasses_trit {k : Fin 12} {d : Decoder} (t : Trit) (h : d.state = symbolStart k) :
    consumeClasses (patternClasses (tritPattern t)) d = ({ d with
      receivedBit := tritPattern t
      receivedCode := d.receivedCode * 3#32 + BitVec.ofNat 32 t.toNat
      state := afterSymbol k }, none) := by
  rw [consumeClasses_pattern _ h, patternTrit_tritPattern]

/-- A pattern that is no trit's aborts at its fourth interval (rules R65, R110, R116). -/
theorem consumeClasses_illegal {k : Fin 12} {d : Decoder} {p : BitVec 4} (h : d.state = symbolStart k)
    (hp : patternTrit p = none) :
    consumeClasses (patternClasses p) d = ({ d with receivedBit := p, state := .syncWait }, none) := by
  rw [consumeClasses_pattern _ h, hp]

/-! ## The terminating sync -/

theorem nextSymbolState_ne_finalSync2 (n : Fin 48) : nextSymbolState n ≠ .finalSync2 := by
  unfold nextSymbolState
  split <;> simp

/-- Rules R110, R112, R116: a gap aborts in every state but 49. -/
theorem consumeClass_gap {d : Decoder} (h : d.state ≠ .finalSync2) : consumeClass .gap d = (abort d, none) := by
  rcases consumeClass_cases .gap d with ⟨hst, hc⟩ | ⟨-, hc⟩ | ⟨_, b, -, hb, -⟩ | ⟨-, hs, -⟩ | ⟨hst, -, -⟩
  · rw [hc, abort, ← hst]
  · exact hc
  · cases b <;> cases hb
  · cases hs
  · exact absurd hst h

/-- A pattern whose newest bit is 0 is not that of the trit 0. -/
theorem shiftIn_false_ne : ∀ r : BitVec 4, r <<< 1 ≠ 0b0101#4 := by decide

/-- A 0 shifted in at a symbol state, and then an abort: only a symbol completed by the 0 leaves its trit (rules R109 to
R111, R116). -/
theorem abort_acceptBit_false (n : Fin 48) (d : Decoder) :
    abort (acceptBit n false d) = { d with
      receivedBit := d.receivedBit <<< 1
      receivedCode :=
        if n.val % 4 = 3 ∧ d.receivedBit <<< 1 = 0b1010#4 then d.receivedCode * 3#32 + 1#32
        else if n.val % 4 = 3 ∧ d.receivedBit <<< 1 = 0b0110#4 then d.receivedCode * 3#32 + 2#32
        else d.receivedCode
      state := .syncWait } := by
  have hshift : shiftIn d.receivedBit false = d.receivedBit <<< 1 := BitVec.or_zero
  by_cases hlast : n.val % 4 = 3
  · rw [acceptBit_last false d hlast, shiftBit_eq, hshift]
    rcases patternTrit_cases (d.receivedBit <<< 1) with ⟨hp, -⟩ | ⟨hp, ht⟩ | ⟨hp, ht⟩ | ⟨-, hhigh, hfloat, ht⟩
    · exact absurd hp (shiftIn_false_ne _)
    · rw [ht, if_pos ⟨hlast, hp⟩]
      rfl
    · rw [ht, if_neg (by simp [hp]), if_pos ⟨hlast, hp⟩]
      rfl
    · rw [ht, if_neg (fun h => hhigh h.2), if_neg (fun h => hfloat h.2)]
      rfl
  · rw [acceptBit_mid false d hlast, shiftBit_eq, hshift, if_neg (fun h => hlast h.1), if_neg (fun h => hlast h.1)]
    rfl

/-- `RX.SYNC` in state 48: the short interval leads to state 49, and there the gap makes a candidate (rules R112,
R113). -/
theorem consumeClasses_sync_finalSync1 {d : Decoder} (h : d.state = .finalSync1) :
    consumeClasses [.short, .gap] d = candidate { d with state := .finalSync2 } := by
  have hshort : consumeClass .short d = ({ d with state := .finalSync2 }, none) := by simp only [consumeClass, h]
  rw [consumeClasses_cons hshort, consumeClasses_singleton]
  rfl

/-- `RX.SYNC` in state 49: a short interval is no terminating gap (rule R113). -/
theorem consumeClasses_sync_finalSync2 {d : Decoder} (h : d.state = .finalSync2) :
    consumeClasses [.short, .gap] d = (abort d, none) := by
  have hshort : consumeClass .short d = (abort d, none) := by simp only [consumeClass, h]
  rw [consumeClasses_cons hshort, consumeClasses_singleton, consumeClass_gap (by simp)]
  rfl

/-- `RX.SYNC` in a symbol state: the short interval is a 0, and the gap aborts (rules R109, R116). -/
theorem consumeClasses_sync_symbol {n : Fin 48} {d : Decoder} (h : d.state = .symbol n) :
    consumeClasses [.short, .gap] d = (abort (acceptBit n false d), none) := by
  have hst : (acceptBit n false d).state ≠ .finalSync2 := by
    rcases acceptBit_cases n false d with ⟨-, ha⟩ | ⟨-, _, -, ha⟩ | ⟨-, -, ha⟩ <;> rw [ha]
    · exact nextSymbolState_ne_finalSync2 n
    · exact nextSymbolState_ne_finalSync2 n
    · simp
  rw [consumeClasses_cons (c := .short) (consumeClass_bit (n := n) false h), consumeClasses_singleton,
    consumeClass_gap hst]

/-! ## A frame's symbols -/

/-- The state in which `n` symbols of a frame have been received (rules R13, R111). -/
def frameState (n : Nat) : SeqState := if h : 4 * n < 48 then .symbol ⟨4 * n, h⟩ else .finalSync1

theorem frameState_of_lt {n : Nat} (h : n < 12) : frameState n = symbolStart ⟨n, h⟩ := dif_pos (by omega)

theorem frameState_twelve : frameState 12 = .finalSync1 := rfl

/-- `d` is `d0` after the symbols `ts` of a frame: its state and its accumulator are theirs (rules R56, R110), and
beyond those only the shift pattern has been written. -/
structure HoldsTrits (d0 : Decoder) (ts : List Trit) (d : Decoder) : Prop where
  state : d.state = frameState ts.length
  code : d.receivedCode = BitVec.ofNat 32 (codeOfDigits (ts.map Trit.toNat))
  rest : d = { d0 with receivedBit := d.receivedBit, receivedCode := d.receivedCode, state := d.state }

namespace HoldsTrits

variable {d0 d : Decoder} {pre : List Trit}

/-- A frame begins at state 0 with an empty accumulator (rules R106, R115). -/
theorem nil (hst : d.state = .symbol 0) (hcode : d.receivedCode = 0#32) : HoldsTrits d [] d := ⟨hst, hcode, rfl⟩

/-- The base-3 value of one more trit (rule R110). -/
theorem code_concat (t : Trit) (h : HoldsTrits d0 pre d) :
    d.receivedCode * 3#32 + BitVec.ofNat 32 t.toNat =
      BitVec.ofNat 32 (codeOfDigits ((pre ++ [t]).map Trit.toNat)) := by
  rw [h.code, List.map_append, List.map_singleton, codeOfDigits, codeOfDigits, digitValue_concat, BitVec.ofNat_add,
    BitVec.ofNat_mul]

theorem concat (t : Trit) (h : HoldsTrits d0 pre d) (hlen : pre.length < 12) :
    ∃ d', consumeClasses (patternClasses (tritPattern t)) d = (d', none) ∧ HoldsTrits d0 (pre ++ [t]) d' := by
  have hst : d.state = symbolStart ⟨pre.length, hlen⟩ := h.state.trans (frameState_of_lt hlen)
  refine ⟨_, consumeClasses_trit t hst, ?_, h.code_concat t, ?_⟩
  · rw [List.length_append, List.length_singleton]
    rfl
  · rw [h.rest]

/-- The symbols of a frame one after another, as classified intervals. -/
theorem append (ts : List Trit) (h : HoldsTrits d0 pre d) (hlen : pre.length + ts.length ≤ 12) :
    ∃ d', consumeClasses (ts.flatMap fun t => patternClasses (tritPattern t)) d = (d', none) ∧
      HoldsTrits d0 (pre ++ ts) d' := by
  induction ts generalizing pre d with
  | nil => exact ⟨d, rfl, by rwa [List.append_nil]⟩
  | cons t ts ih =>
    rw [List.length_cons] at hlen
    obtain ⟨d1, hc1, h1⟩ := h.concat t (by omega)
    obtain ⟨d2, hc2, h2⟩ := ih h1 (by rw [List.length_append, List.length_singleton]; omega)
    rw [List.append_assoc, List.singleton_append] at h2
    exact ⟨d2, (consumeClasses_append hc1).trans hc2, h2⟩

end HoldsTrits

/-! ## Operations one after another -/

/-- An operation that emits nothing passes its state on. -/
theorem runOps_cons {i : Instr} {is : List Instr} {s s' : State} (h : exec i s.quiet = .next s')
    (hsilent : s'.decoded = none) : runOps (i :: is) s = runOps is s' := by
  simp only [runOps, h, hsilent]
  exact Option.map_id'

/-- The symbols of a frame one after another, as reception rows. -/
theorem runOps_rxRows (ts : List Trit) {d0 : Decoder} {pre : List Trit} {s : State}
    (h : HoldsTrits d0 pre s.decoder) (hlen : pre.length + ts.length ≤ 12) (henabled : s.enabled = true)
    (hskip : d0.skip = false) :
    ∃ u, runOps (ts.map rxRow) s = some (u, []) ∧ HoldsTrits d0 (pre ++ ts) u.decoder ∧ u.encoder = s.encoder ∧
      u.enabled = s.enabled := by
  induction ts generalizing pre s with
  | nil => exact ⟨s, rfl, by rwa [List.append_nil], rfl, rfl⟩
  | cons t ts ih =>
    rw [List.length_cons] at hlen
    obtain ⟨d, hc, hd⟩ := h.concat t (by omega)
    have hskip' : s.decoder.skip = false := by rw [h.rest]; exact hskip
    have hexec : exec (rxRow t) s.quiet = .next { s.quiet with decoder := d } := by
      rw [exec_rxRow, receive_of_consumeClasses (s := s.quiet) henabled hskip' hc]
    obtain ⟨u, hu, htrits, hencoder, henabled'⟩ := ih (s := { s.quiet with decoder := d }) hd
      (by rw [List.length_append, List.length_singleton]; omega) henabled
    rw [List.append_assoc, List.singleton_append] at htrits
    exact ⟨u, (runOps_cons hexec rfl).trans hu, htrits, hencoder, henabled'⟩

/-! ## Codes of twelve trits -/

theorem codeOfDigits_trits_lt {ts : List Trit} (hlen : ts.length = 12) : codeOfDigits (ts.map Trit.toNat) < 531441 := by
  have h := codeOfDigits_lt (ts.map Trit.toNat) fun d hd => by
    obtain ⟨t, -, rfl⟩ := List.mem_map.mp hd
    exact trit_toNat_lt t
  rwa [List.length_map, hlen] at h

/-- Rule R82: the symbols of a code of twelve trits are those trits. -/
theorem codeToSymv_of_trits {ts : List Trit} {c : BitVec 20} (hlen : ts.length = 12)
    (hc : c.toNat = codeOfDigits (ts.map Trit.toNat)) : codeToSymv c = packTrits ts := by
  rw [codeToSymv, hc, codeDigit_codeOfDigits (by rwa [List.length_map]), packTrits]
  intro d hd
  obtain ⟨t, -, rfl⟩ := List.mem_map.mp hd
  exact trit_toNat_lt t

end Sys2Proof.Machine

/-! ## The obligations -/

namespace Sys2Proof.Claims

open Sys2Proof.Machine

/-- Settles O32: each row is the reception of its pattern. -/
theorem receivedPatternAppendsTrit : Obligations.ReceivedPatternAppendsTrit := by
  intro s k henabled hskip hst
  have hrow (t : Trit) := (exec_rxRow t s).trans
    (congrArg _ (receive_of_consumeClasses henabled hskip (consumeClasses_trit t hst)))
  have hlow : s.decoder.receivedCode * 3#32 + BitVec.ofNat 32 Trit.low.toNat = s.decoder.receivedCode * 3#32 :=
    BitVec.add_zero _
  refine ⟨(hrow .low).trans (by rw [hlow]; rfl), hrow .high, hrow .float, fun pat h0 h1 h2 => ?_⟩
  have hillegal : patternTrit pat = none := by
    rcases patternTrit_cases pat with ⟨h, -⟩ | ⟨h, -⟩ | ⟨h, -⟩ | ⟨-, -, -, hnone⟩
    · exact absurd h h0
    · exact absurd h h1
    · exact absurd h h2
    · exact hnone
  exact congrArg _ (receive_of_consumeClasses henabled hskip (consumeClasses_illegal hst hillegal))

/-- Settles O33, state by state: in 48 all that a candidate can do, in 49 and in the symbol states an abort. -/
theorem receivedSyncCompletesCandidate : Obligations.ReceivedSyncCompletesCandidate := by
  have hrow {s : State} (henabled : s.enabled = true) (hskip : s.decoder.skip = false) :
      exec .rxSync s = .next (s.withDecoder (consumeClasses [.short, .gap] s.decoder)) :=
    congrArg _ (receive_of_listening _ henabled hskip)
  refine ⟨fun s count henabled hskip hst hcount => ?_, fun s henabled hskip hst => ?_,
    fun s n pat henabled hskip hst hpat => ?_⟩
  · rw [hrow henabled hskip, consumeClasses_sync_finalSync1 hst]
    rcases candidate_cases { s.decoder with state := .finalSync2 } count hcount with
      ⟨hmet, hclear, hc⟩ | ⟨hmet, hset, hc⟩ | ⟨hbelow, hc⟩ <;> rw [hc]
    · exact ⟨fun _ _ => rfl, fun _ hset => absurd (hclear.symm.trans hset) (by decide),
        fun hbelow => absurd hmet (Nat.not_le.mpr hbelow)⟩
    · exact ⟨fun _ hclear => absurd (hset.symm.trans hclear) (by decide), fun _ _ => rfl,
        fun hbelow => absurd hmet (Nat.not_le.mpr hbelow)⟩
    · exact ⟨fun hmet _ => absurd hmet (Nat.not_le.mpr hbelow), fun hmet _ => absurd hmet (Nat.not_le.mpr hbelow),
        fun _ => rfl⟩
  · rw [hrow henabled hskip, consumeClasses_sync_finalSync2 hst]
    rfl
  · rw [hrow henabled hskip, consumeClasses_sync_symbol hst, abort_acceptBit_false, hpat]
    rfl

/-- Settles O35. Each row adds its trit to the code, and a code of twelve trits fits 20 bits. -/
theorem twelveReceivedSymbolsGiveCode : Obligations.TwelveReceivedSymbolsGiveCode := by
  intro s ts hlen henabled hskip hst hcode
  obtain ⟨u, hrun, htrits, hencoder, henabled'⟩ :=
    runOps_rxRows ts (HoldsTrits.nil hst hcode) (by simp [hlen]) henabled hskip
  rw [List.nil_append] at htrits
  have hlt := codeOfDigits_trits_lt hlen
  have hvalue : u.decoder.receivedCode.toNat = codeOfDigits (ts.map Trit.toNat) := by
    rw [htrits.code, BitVec.toNat_ofNat, Nat.mod_eq_of_lt (by omega)]
  refine ⟨u, hrun, ?_, hvalue, by omega, codeToSymv_of_trits hlen ?_, ?_, hencoder, henabled'⟩
  · rw [htrits.state, hlen, frameState_twelve]
  · rw [BitVec.toNat_setWidth, hvalue, Nat.mod_eq_of_lt (by omega)]
  · rw [htrits.rest]

end Sys2Proof.Claims
end

section
/-!
PROOFS. Against the bands of its own period every segment that is sent classifies as the interval it stands for
(rule R62; O36).
-/

namespace Sys2Proof.Machine

open Sys2Proof.Safety Sys2Proof.Claims

/-! ## Sent segments against the bands of their period -/

/-- The length in periods of a segment that stands for a bit (rules R59, R61). -/
def bitLen (b : Bool) : Nat := if b then 3 else 1

/-- The bits of a trit's pattern (rules R59, R110). -/
def tritBits (t : Trit) : List Bool := patternBits (tritPattern t)

/-- The segments of a trit are those of the bits of its pattern (rules R59, R61). -/
theorem symbolLens_of_trit (t : Trit) : symbolLens (BitVec.ofNat 2 t.toNat) = (tritBits t).map bitLen := by
  cases t <;> rfl

/-- The decoder's estimate is the period `p`, with its bands (rules R106, R107). -/
structure Estimates (p : Nat) (d : Decoder) : Prop where
  pos : 1 ≤ p
  period : d.period = p
  bands : BandsFollowPeriod d

namespace Estimates

variable {p : Nat} {d : Decoder}

theorem min1Period_le (h : Estimates p d) : d.min1Period ≤ p := by
  obtain ⟨-, hperiod, hmin1, -⟩ := h
  omega

theorem isShort_iff (h : Estimates p d) (b : Bool) : isShort d (bitLen b * p) = !b := by
  obtain ⟨hpos, hperiod, -, hmax1, -⟩ := h
  rw [isShort, hmax1, hperiod]
  cases b <;> simp [bitLen] <;> omega

theorem isLong_three (h : Estimates p d) : isLong d (bitLen true * p) = true := by
  obtain ⟨-, hperiod, -, -, hmin3, hmax3⟩ := h
  rw [isLong, hmin3, hmax3, hperiod]
  simp [bitLen]
  omega

/-- Rules R108, R62: in a symbol state a segment is the interval of its bit. -/
theorem classify_symbol {n : Fin 48} (h : Estimates p d) (hst : d.state = .symbol n) (b : Bool) :
    classify d (bitLen b * p) = bitClass b := by
  have hshort := h.isShort_iff b
  cases b <;> simp [classify, hst, hshort, h.isLong_three, bitClass]

/-- Rules R112, R62. -/
theorem classify_finalSync1 (h : Estimates p d) (hst : d.state = .finalSync1) : classify d (1 * p) = .short := by
  have hshort : isShort d (1 * p) = true := h.isShort_iff false
  simp only [classify, hst, hshort, if_true]

/-- Rules R113, R62: 31 periods are a terminating gap. -/
theorem classify_finalSync2 (h : Estimates p d) (hst : d.state = .finalSync2) : classify d (31 * p) = .gap := by
  have hgap : isTerminalGap d (31 * p) = true := by
    rw [isTerminalGap, h.period]
    simp
    omega
  simp only [classify, hst, hgap, if_true]

end Estimates

/-- The segments of a trit classify as its pattern. -/
theorem map_classify_symbolLens {p : Nat} {d : Decoder} {n : Fin 48} (h : Estimates p d) (hst : d.state = .symbol n)
    (t : Trit) :
    (symbolLens (BitVec.ofNat 2 t.toNat)).map (fun len => classify d (len * p)) = patternClasses (tritPattern t) := by
  rw [symbolLens_of_trit, List.map_map, patternClasses_eq]
  exact List.map_congr_left fun b _ => h.classify_symbol hst b

end Sys2Proof.Machine

/-! ## The obligation -/

namespace Sys2Proof.Claims

open Sys2Proof.Machine

/-- Settles O36, by the bands of the period. -/
theorem sentSegmentsClassifyAsReceivedPatterns : Obligations.SentSegmentsClassifyAsReceivedPatterns := by
  intro d p hpos hperiod hbands
  have h : Estimates p d := ⟨hpos, hperiod, hbands⟩
  exact ⟨Nat.not_lt.mpr h.min1Period_le,
    fun n hst => ⟨map_classify_symbolLens h hst .low, map_classify_symbolLens h hst .high,
      map_classify_symbolLens h hst .float⟩,
    h.classify_finalSync1, h.classify_finalSync2⟩

end Sys2Proof.Claims
end

section
/-!
PROOFS. A frame's edges on time (rules R62, R75, R118): the decoder estimates the period from the gap before the frame,
receives its twelve symbols and delivers their code (O37).
-/

namespace Sys2Proof.Machine

open Sys2Proof.Safety Sys2Proof.Claims

/-! ## The window stands beside the state machine -/

/-- A decoder with another window (rule R17). -/
def Decoder.withWindow (t0 t1 t2 : Stamp) (d : Decoder) : Decoder := { d with t0 := t0, t1 := t1, t2 := t2 }

theorem acceptBit_withWindow (n : Fin 48) (b : Bool) (t0 t1 t2 : Stamp) (d : Decoder) :
    acceptBit n b (d.withWindow t0 t1 t2) = (acceptBit n b d).withWindow t0 t1 t2 := by
  by_cases hlast : n.val % 4 = 3
  · rw [acceptBit_last b _ hlast, acceptBit_last b d hlast,
      show (d.withWindow t0 t1 t2).receivedBit = d.receivedBit from rfl]
    cases patternTrit (shiftIn d.receivedBit b) <;> rfl
  · rw [acceptBit_mid b _ hlast, acceptBit_mid b d hlast]
    rfl

/-- A short or long interval emits nothing, and what it does to the other registers does not depend on the window. -/
theorem consumeClass_bit_withWindow (b : Bool) (t0 t1 t2 : Stamp) (d : Decoder) :
    consumeClass (bitClass b) (d.withWindow t0 t1 t2) =
      ((consumeClass (bitClass b) d).1.withWindow t0 t1 t2, none) := by
  have hst' : (d.withWindow t0 t1 t2).state = d.state := rfl
  cases hst : d.state with
  | symbol n =>
    rw [consumeClass_bit (n := n) b hst, consumeClass_bit (n := n) b (hst'.trans hst), acceptBit_withWindow]
  | syncWait => simp only [consumeClass, hst', hst]
  | finalSync1 => cases b <;> simp only [consumeClass, bitClass, hst', hst] <;> rfl
  | finalSync2 => cases b <;> simp only [consumeClass, bitClass, hst', hst] <;> rfl

theorem consumeClass_bit_silent (b : Bool) (d : Decoder) :
    consumeClass (bitClass b) d = ((consumeClass (bitClass b) d).1, none) := by
  have h : consumeClass (bitClass b) d = (_, none) := consumeClass_bit_withWindow b d.t0 d.t1 d.t2 d
  have hsilent : (consumeClass (bitClass b) d).2 = none := congrArg Prod.snd h
  exact Prod.ext rfl hsilent

theorem consumeClasses_bits_withWindow (bs : List Bool) (t0 t1 t2 : Stamp) (d : Decoder) :
    consumeClasses (bs.map bitClass) (d.withWindow t0 t1 t2) =
      ((consumeClasses (bs.map bitClass) d).1.withWindow t0 t1 t2, none) := by
  induction bs generalizing d with
  | nil => rfl
  | cons b bs ih =>
    rw [List.map_cons, consumeClasses_cons (consumeClass_bit_withWindow b t0 t1 t2 d), ih,
      consumeClasses_cons (consumeClass_bit_silent b d)]

/-- Rules R112, R116: state 48 awaits a short interval. -/
theorem consumeClass_finalSync1 {c : IntervalClass} {d : Decoder} (hst : d.state = .finalSync1) (hc : c ≠ .short) :
    consumeClass c d = (abort d, none) := by
  cases c with
  | short => exact absurd rfl hc
  | _ => simp only [consumeClass, hst]

/-- Rules R113, R116: state 49 awaits a gap. -/
theorem consumeClass_finalSync2 {c : IntervalClass} {d : Decoder} (hst : d.state = .finalSync2) (hc : c ≠ .gap) :
    consumeClass c d = (abort d, none) := by
  cases c with
  | gap => exact absurd rfl hc
  | _ => simp only [consumeClass, hst]

/-! ## The estimate stays, and a segment of a symbol is its bit -/

namespace Estimates

variable {p : Nat} {d : Decoder}

theorem withWindow (h : Estimates p d) (t0 t1 t2 : Stamp) : Estimates p (d.withWindow t0 t1 t2) :=
  ⟨h.pos, h.period, h.bands⟩

theorem abort (h : Estimates p d) : Estimates p (abort d) := ⟨h.pos, h.period, h.bands⟩

theorem acceptBit (n : Fin 48) (b : Bool) (h : Estimates p d) : Estimates p (acceptBit n b d) := by
  rcases acceptBit_cases n b d with ⟨-, ha⟩ | ⟨-, _, -, ha⟩ | ⟨-, -, ha⟩ <;> rw [ha] <;>
    exact ⟨h.pos, h.period, h.bands⟩

theorem consumeClass_bit (b : Bool) (h : Estimates p d) : Estimates p (consumeClass (bitClass b) d).1 := by
  rcases consumeClass_cases (bitClass b) d with ⟨-, hc⟩ | ⟨-, hc⟩ | ⟨n, _, -, -, hc⟩ | ⟨-, -, hc⟩ | ⟨-, hb, -⟩
  · rwa [hc]
  · rw [hc]
    exact h.abort
  · rw [hc]
    exact h.acceptBit n _
  · rw [hc]
    exact ⟨h.pos, h.period, h.bands⟩
  · cases b <;> cases hb

theorem isTerminalGap_bit (h : Estimates p d) (b : Bool) : isTerminalGap d (bitLen b * p) = false := by
  have hpos := h.pos
  rw [isTerminalGap, h.period]
  cases b <;> simp [bitLen] <;> omega

/-- Rules R62, R108, R112: consumed in any state, a segment of a symbol is the interval of its bit; where the state
machine awaits another interval, both abort. -/
theorem consumeDuration_bit (h : Estimates p d) (hp : p ≤ 511) (b : Bool) :
    consumeDuration (bitLen b * p) d = consumeClass (bitClass b) d := by
  have hlen : bitLen b * p ≤ 3 * 511 := Nat.mul_le_mul (by cases b <;> decide) hp
  rcases consumeDuration_cases (bitLen b * p) d with ⟨hst, -, hc⟩ | ⟨-, hlong, -⟩ | ⟨hne, hc⟩
  · simp only [hc, consumeClass, hst]
  · omega
  · rw [hc]
    cases hst : d.state with
    | syncWait => exact absurd hst hne
    | symbol n => rw [h.classify_symbol hst]
    | finalSync1 =>
      cases b with
      | false => rw [show classify d (bitLen false * p) = .short from h.classify_finalSync1 hst]; rfl
      | true =>
        have hlong : classify d (bitLen true * p) = .bad := by simp [classify, hst, h.isShort_iff]
        rw [hlong, consumeClass_finalSync1 hst (by decide), consumeClass_finalSync1 hst (by decide)]
    | finalSync2 =>
      have hbad : classify d (bitLen b * p) = .bad := by simp [classify, hst, h.isTerminalGap_bit]
      rw [hbad, consumeClass_finalSync2 hst (by decide), consumeClass_finalSync2 hst (by cases b <;> decide)]

end Estimates

/-! ## Silent runs -/

/-- The operations `ops` take `s` to `u` and emit nothing. -/
def LeadsTo (ops : List Instr) (s u : State) : Prop := ∀ rest, runOps (ops ++ rest) s = runOps rest u

theorem LeadsTo.refl (s : State) : LeadsTo [] s s := fun _ => rfl

theorem LeadsTo.trans {ops ops' : List Instr} {s t u : State} (h : LeadsTo ops s t) (h' : LeadsTo ops' t u) :
    LeadsTo (ops ++ ops') s u := fun rest => by rw [List.append_assoc, h, h']

/-- All that an edge does that is neither ignored, skipped nor discarded (rules R102, R105). -/
theorem exec_edge_of_consumes {now : Stamp} {s : State} (h : Consumes now s) :
    exec (.edge now) s = .next (s.withDecoder (consumeDuration (duration s) (windowMoved now s))) := by
  obtain ⟨henabled, hskip, hkept⟩ := h
  have hexec : exec (.edge now) s = .next (s.withDecoder (edgeStep s.config.tw (wrap s.config.tw now) s.decoder)) :=
    if_pos henabled
  rw [hexec]
  rcases edgeStep_cases s.config.tw (wrap s.config.tw now) s.decoder with ⟨h, -⟩ | ⟨-, hst, hlt, -⟩ | ⟨-, -, he⟩
  · simp [hskip] at h
  · rw [interval_wrap_left] at hlt
    rcases hkept with h | h
    · exact absurd h hst
    · omega
  · rw [he]
    rfl

theorem leadsTo_edge {now : Stamp} {s : State} {d : Decoder} (h : Consumes now s)
    (hd : consumeDuration (duration s) (windowMoved now s) = (d, none)) :
    LeadsTo [.edge now] s (s.quiet.withDecoder (d, none)) := by
  have hexec : exec (.edge now) s.quiet = .next (s.quiet.withDecoder (d, none)) := by
    have hquiet : consumeDuration (duration s.quiet) (windowMoved now s.quiet) = (d, none) := hd
    rw [exec_edge_of_consumes (s := s.quiet) h, hquiet]
  exact fun rest => runOps_cons hexec rfl

/-! ## Edges on time -/

/-- A machine that receives a frame sent at the period `p`, from the state `s0`: it listens and has the period
estimated; the newest edge was at `time`, and of the line before it `pending` periods have not been consumed yet (rule R118). -/
structure OnAir (s0 : State) (p : Nat) (time : Stamp) (pending : Nat) (s : State) : Prop where
  config : s.config = s0.config
  encoder : s.encoder = s0.encoder
  enabled : s.enabled = true
  skip : s.decoder.skip = false
  estimate : Estimates p s.decoder
  newest : s.decoder.t2 = wrap s0.config.tw time
  pending : duration s = pending * p

/-- Up to 31 periods of at most 511 microseconds are shorter than the clock's range (rule R137). -/
theorem periods_lt {tw m p : Nat} (htw : 14 ≤ tw) (hm : m ≤ 31) (hp : p ≤ 511) : m * p < 2 ^ tw := by
  have hrange : 2 ^ 14 ≤ 2 ^ tw := Nat.pow_le_pow_right (by decide) htw
  have hlen : m * p ≤ 31 * 511 := Nat.mul_le_mul hm hp
  omega

/-- An instant `n` microseconds after another is seen there on the clock's bits. -/
theorem interval_of_wrap_eq {tw n : Nat} {now time : Stamp} (hnow : wrap tw now = wrap tw (time + n))
    (hn : n < 2 ^ tw) :
    interval tw now (wrap tw time) = n := by
  rw [← interval_wrap_left, hnow, interval_wrap_left, interval_wrap_right, interval_add _ _ hn]

namespace OnAir

variable {s0 s : State} {p pending : Nat} {time : Stamp}

/-- The next edge on time is kept by the filter, and its duration is the one that was pending. -/
theorem edge (h : OnAir s0 p time pending s) (htw : 14 ≤ s0.config.tw) (hp : p ≤ 511) {now : Stamp} {m : Nat}
    (hnow : wrap s0.config.tw now = wrap s0.config.tw (time + m * p)) (hm : 1 ≤ m ∧ m ≤ 31) {d : Decoder}
    (hd : consumeDuration (pending * p) (windowMoved now s) = (d, none)) (hest : Estimates p d) :
    LeadsTo [.edge now] s (s.quiet.withDecoder (d, none)) ∧
      OnAir s0 p (time + m * p) m (s.quiet.withDecoder (d, none)) := by
  have hgap : interval s0.config.tw now s.decoder.t2 = m * p := by
    rw [h.newest, interval_of_wrap_eq hnow (periods_lt htw hm.2 hp)]
  have hconsumes : Consumes now s := by
    refine ⟨h.enabled, h.skip, .inr ?_⟩
    rw [h.config, hgap]
    exact h.estimate.min1Period_le.trans (Nat.le_mul_of_pos_left p hm.1)
  obtain ⟨ht0, -, ht2, hskip⟩ := sameWindow_consumeDuration (pending * p) (windowMoved now s)
  rw [hd] at ht0 ht2 hskip
  have hnewest : d.t2 = wrap s0.config.tw (time + m * p) := by
    rw [ht2, ← hnow, ← h.config]
    rfl
  refine ⟨leadsTo_edge hconsumes (h.pending ▸ hd), h.config, h.encoder, h.enabled, hskip.trans h.skip, hest,
    hnewest, ?_⟩
  rw [duration, withDecoder_config, quiet_config, h.config, withDecoder_decoder, hnewest, ← hnow, ht0,
    interval_wrap_left]
  exact hgap

/-- An edge that ends a segment of a symbol, with another pending: that one is consumed as the interval of its bit. -/
theorem bit {b : Bool} (h : OnAir s0 p time (bitLen b) s) (htw : 14 ≤ s0.config.tw) (hp : p ≤ 511) {now : Stamp}
    {m : Nat} (hnow : wrap s0.config.tw now = wrap s0.config.tw (time + m * p)) (hm : 1 ≤ m ∧ m ≤ 31) :
    ∃ u t0 t1 t2, LeadsTo [.edge now] s u ∧ OnAir s0 p (time + m * p) m u ∧
      u.decoder = (consumeClass (bitClass b) s.decoder).1.withWindow t0 t1 t2 := by
  have hest := h.estimate.withWindow s.decoder.t2 s.decoder.t2 (wrap s.config.tw now)
  have hd := (hest.consumeDuration_bit hp b).trans (consumeClass_bit_withWindow b _ _ _ s.decoder)
  obtain ⟨hlead, hair⟩ := h.edge htw hp hnow hm hd ((h.estimate.consumeClass_bit b).withWindow _ _ _)
  exact ⟨_, _, _, _, hlead, hair, rfl⟩

end OnAir

/-- The times at which consecutive durations end, counted from `t`. -/
def timesAfter (t : Stamp) : List Nat → List Stamp
  | [] => []
  | len :: lens => (t + len) :: timesAfter (t + len) lens

theorem bitLen_bounds (b : Bool) : 1 ≤ bitLen b ∧ bitLen b ≤ 31 := by cases b <;> decide

theorem startsFrom_concat (t : Stamp) (lens : List Nat) (len : Nat) :
    startsFrom t (lens ++ [len]) = t :: timesAfter t lens := by
  induction lens generalizing t with
  | nil => rfl
  | cons l lens ih => rw [List.cons_append, startsFrom, ih, timesAfter]

/-- The edges that end segments of a symbol, given by their bits, after an edge at `time`. -/
def bitEdges (tw p : Nat) (time : Stamp) (bs : List Bool) : List Instr :=
  (timesAfter time (bs.map fun b => bitLen b * p)).map fun t => .edge (wrap tw t)

theorem bitEdges_cons (tw p : Nat) (time : Stamp) (b : Bool) (bs : List Bool) :
    bitEdges tw p time (b :: bs) =
      .edge (wrap tw (time + bitLen b * p)) :: bitEdges tw p (time + bitLen b * p) bs := rfl

/-- The length of segments of symbols, in periods. -/
def bitsLen (bs : List Bool) : Nat := (bs.map bitLen).sum

/-- Each edge that ends a segment consumes the segment before it: of the pending segment and those that follow it all
but the last are consumed, each as the interval of its bit. -/
theorem OnAir.bits {s0 s : State} {p : Nat} {time : Stamp} {b last : Bool} {bs consumed : List Bool}
    (h : OnAir s0 p time (bitLen b) s) (htw : 14 ≤ s0.config.tw) (hp : p ≤ 511) (hbits : b :: bs = consumed ++ [last]) :
    ∃ u t0 t1 t2, LeadsTo (bitEdges s0.config.tw p time bs) s u ∧
      OnAir s0 p (time + bitsLen bs * p) (bitLen last) u ∧
      u.decoder = (consumeClasses (consumed.map bitClass) s.decoder).1.withWindow t0 t1 t2 := by
  induction bs generalizing b s time consumed with
  | nil =>
    cases consumed with
    | nil =>
      cases hbits
      exact ⟨s, _, _, _, LeadsTo.refl s, by simpa [bitsLen] using h, rfl⟩
    | cons => simp at hbits
  | cons b' bs ih =>
    cases consumed with
    | nil => simp at hbits
    | cons c consumed =>
      obtain ⟨rfl, hrest⟩ := List.cons.inj hbits
      obtain ⟨v, w0, w1, w2, hlead, hair, hv⟩ := h.bit htw hp (wrap_wrap _ _) (bitLen_bounds b')
      obtain ⟨u, t0, t1, t2, hlead', hair', hu⟩ := ih hair hrest
      refine ⟨u, t0, t1, t2, hlead.trans hlead', ?_, ?_⟩
      · have hlen : time + bitsLen (b' :: bs) * p = time + bitLen b' * p + bitsLen bs * p := by
          rw [bitsLen, List.map_cons, List.sum_cons, Nat.add_mul, Nat.add_assoc, bitsLen]
        rwa [hlen]
      · rw [hu, hv, consumeClasses_bits_withWindow, List.map_cons,
          consumeClasses_cons (consumeClass_bit_silent b s.decoder)]
        rfl

/-! ## The gap before the frame -/

/-- No frame of the telegram has been accepted yet; the guard is clear and one frame suffices (rules R106, R115). -/
structure FirstFrame (d : Decoder) : Prop where
  previousCode : d.previousCode = 0#32
  repeats : d.repeats = 0#8
  guard : d.inCallback = false
  threshold : d.minRepeats.toNat ≤ 1

theorem consumeDuration_wait {duration : Nat} {d : Decoder} (hst : d.state = .syncWait) (h : duration ≤ 3720) :
    consumeDuration duration d = (d, none) := by
  rcases consumeDuration_cases duration d with ⟨-, -, hc⟩ | ⟨-, hlong, -⟩ | ⟨hne, -⟩
  · exact hc
  · omega
  · exact absurd hst hne

theorem consumeDuration_sync {duration : Nat} {d : Decoder} (hst : d.state = .syncWait) (h : 3720 < duration) :
    consumeDuration duration d = (detectSync duration d, none) := by
  rcases consumeDuration_cases duration d with ⟨-, hshort, -⟩ | ⟨-, -, hc⟩ | ⟨hne, -⟩
  · omega
  · exact hc
  · exact absurd hst hne

/-- Rules R106, R107: a gap of 31 periods gives the period. -/
theorem estimates_detectSync {p : Nat} (d : Decoder) (hpos : 1 ≤ p) : Estimates p (detectSync (31 * p) d) :=
  ⟨hpos, Nat.mul_div_cancel_left p (by decide), rfl, rfl, rfl, rfl⟩

/-- The machine waits for a frame of the period `p` that begins at `start`, after a gap of 31 periods: the decoder
listens in `SYNC_WAIT`, the duration still pending is no gap, the guard is clear and one frame suffices (rules R62, R118). -/
structure AwaitsFrame (p : Nat) (start : Stamp) (s : State) : Prop where
  clock : 14 ≤ s.config.tw
  least : 121 ≤ p
  greatest : p ≤ 511
  enabled : s.enabled = true
  skip : s.decoder.skip = false
  state : s.decoder.state = .syncWait
  guard : s.decoder.inCallback = false
  threshold : s.decoder.minRepeats.toNat ≤ 1
  gap : interval s.config.tw start s.decoder.t2 = 31 * p
  pending : duration s ≤ 3720

/-- Rules R106, R118: the edge that ends the gap of 31 periods, and the one `m` periods after it, which consumes the
gap. -/
theorem AwaitsFrame.leadsTo_sync {s : State} {p m : Nat} {start now now' : Stamp} (h : AwaitsFrame p start s)
    (hm : m ≤ 31) (hnow : wrap s.config.tw now = wrap s.config.tw start)
    (hnow' : wrap s.config.tw now' = wrap s.config.tw (start + m * p)) :
    ∃ u, LeadsTo [.edge now, .edge now'] s u ∧ OnAir s p (start + m * p) m u ∧ HoldsTrits u.decoder [] u.decoder ∧
      FirstFrame u.decoder := by
  obtain ⟨htw, hp121, hp511, henabled, hskip, hst, hguard, hmin, hgap, hold⟩ := h
  have hfirst := leadsTo_edge (now := now) ⟨henabled, hskip, .inl hst⟩
    (consumeDuration_wait (d := windowMoved now s) hst hold)
  obtain ⟨s1, hs1⟩ : ∃ s1, s1 = s.quiet.withDecoder (windowMoved now s, none) := ⟨_, rfl⟩
  rw [← hs1] at hfirst
  have hconfig : s1.config = s.config := by rw [hs1]; rfl
  have ht2 : s1.decoder.t2 = wrap s.config.tw start := by rw [hs1, ← hnow]; rfl
  have hpending : duration s1 = 31 * p := by
    rw [duration, hconfig, ht2, interval_wrap_left, ← hgap, hs1]
    rfl
  have hst1 : s1.decoder.state = .syncWait := by rw [hs1]; exact hst
  have hskip1 : s1.decoder.skip = false := by rw [hs1]; exact hskip
  have henabled1 : s1.enabled = true := by rw [hs1]; exact henabled
  have hsecond := leadsTo_edge (now := now') ⟨henabled1, hskip1, .inl hst1⟩
    (consumeDuration_sync (d := windowMoved now' s1) hst1 (by omega))
  rw [hpending] at hsecond
  refine ⟨_, hfirst.trans hsecond, ⟨hconfig, ?_, henabled1, hskip1, estimates_detectSync _ (by omega), ?_, ?_⟩,
    .nil rfl rfl, ⟨rfl, rfl, ?_, ?_⟩⟩
  · rw [hs1]; rfl
  · rw [← hnow', ← hconfig]; rfl
  · rw [← interval_of_wrap_eq hnow' (periods_lt htw hm hp511), ← ht2, ← interval_wrap_left, ← hconfig]
    rfl
  · rw [hs1]; exact hguard
  · rw [hs1]; exact hmin

/-! ## The frame -/

/-- The trit of a legal symbol (rule R57). -/
def symTrit (x : BitVec 2) : Trit := if x = 0#2 then .low else if x = 1#2 then .high else .float

theorem symTrit_toNat : ∀ x : BitVec 2, x ≠ 3#2 → (symTrit x).toNat = x.toNat := by decide

/-- The trits of a symbol vector, in the order they are sent (rule R60). -/
def sentTrits (v : BitVec 24) : List Trit := symIndices.map fun i => symTrit (symAt v i)

theorem sentTrits_length (v : BitVec 24) : (sentTrits v).length = 12 := rfl

theorem sentTrits_toNat {v : BitVec 24} (hv : hasReservedSymbol v = false) :
    (sentTrits v).map Trit.toNat = symDigits v := by
  rw [hasReservedSymbol_eq_false] at hv
  rw [sentTrits, List.map_map, symDigits]
  exact List.map_congr_left fun i hi => symTrit_toNat _ (hv i (mem_symIndices.mp hi))

/-- The code of the trits that are sent for a code is that code (rules R56, R82). -/
theorem codeOfDigits_sentTrits {code : BitVec 20} (hcode : code.toNat < 531441) :
    codeOfDigits ((sentTrits (codeToSymv code)).map Trit.toNat) = code.toNat := by
  rw [sentTrits_toNat (codeToSymv_no_reserved code), symDigits_codeToSymv, codeOfDigits_codeDigit]
  exact Nat.mod_eq_of_lt hcode

/-- The segments of a frame before its gap, by the bits they stand for: those of the symbols, and the short part of the
sync (rules R60, R61). -/
def frameBits (v : BitVec 24) : List Bool := (sentTrits v).flatMap tritBits ++ [false]

/-- Rules R60, R61: a frame is the segments of its symbols' patterns and the sync. -/
theorem frameLens_eq {v : BitVec 24} (hv : hasReservedSymbol v = false) :
    frameLens v = (frameBits v).map bitLen ++ [31] := by
  rw [hasReservedSymbol_eq_false] at hv
  have hsym (i : Nat) (hi : i ∈ symIndices) : symbolLens (symAt v i) = (tritBits (symTrit (symAt v i))).map bitLen := by
    rw [← symbolLens_of_trit, symTrit_toNat _ (hv i (mem_symIndices.mp hi)), BitVec.ofNat_toNat, BitVec.setWidth_eq]
  rw [frameLens, frameBits, sentTrits, List.flatMap_map, List.map_append, List.map_flatMap, List.append_assoc,
    List.flatMap_congr hsym]
  rfl

theorem bitsLen_append (bs bs' : List Bool) : bitsLen (bs ++ bs') = bitsLen bs + bitsLen bs' := by
  rw [bitsLen, List.map_append, List.sum_append, bitsLen, bitsLen]

/-- A symbol has 8 periods (rule R61). -/
theorem bitsLen_trits (ts : List Trit) : bitsLen (ts.flatMap tritBits) = 8 * ts.length := by
  induction ts with
  | nil => rfl
  | cons t ts ih =>
    have h8 : bitsLen (tritBits t) = 8 := by cases t <;> rfl
    rw [List.flatMap_cons, bitsLen_append, h8, ih, List.length_cons]
    ring

/-- A frame has 97 periods before its gap (rules R60, R61). -/
theorem bitsLen_frameBits (v : BitVec 24) : bitsLen (frameBits v) = 97 := by
  rw [frameBits, bitsLen_append, bitsLen_trits, sentTrits_length]
  rfl

theorem alternate_map_snd (p : Nat) (level : Bool) (lens : List Nat) :
    (alternate p level lens).map Prod.snd = lens.map (· * p) := by
  induction lens generalizing level with
  | nil => rfl
  | cons len lens ih => rw [alternate, List.map_cons, List.map_cons, ih]

/-- The edges of a frame: its start, then one at the end of every segment but the gap (rule R75). -/
theorem pseudoFrame_eq {v : BitVec 24} (tw : Nat) (start : Stamp) (p : Nat) (hv : hasReservedSymbol v = false) :
    pseudoFrame tw v start p = .edge (wrap tw start) :: bitEdges tw p start (frameBits v) := by
  rw [pseudoFrame, edgeTimes, frameSegments, alternate_map_snd, frameLens_eq hv, List.map_append, List.map_singleton,
    startsFrom_concat, List.map_map, List.map_cons, bitEdges, List.map_map]
  rfl

/-- Rules R60, R110: the intervals of the symbols are their patterns. -/
theorem map_bitClass_tritBits (ts : List Trit) :
    (ts.flatMap tritBits).map bitClass = ts.flatMap fun t => patternClasses (tritPattern t) := List.map_flatMap ..

/-! ## The candidate -/

/-- Rules R114, R115: the first candidate counts one; that suffices, and it is delivered. -/
theorem FirstFrame.candidate_eq {d : Decoder} (h : FirstFrame d) :
    candidate d = ({ d with repeats := 1#8, previousCode := d.receivedCode, inCallback := true, state := .syncWait },
      some ⟨d.receivedCode, BitVec.ofNat 32 d.period⟩) := by
  have hcount : 1#8 = if d.receivedCode = d.previousCode then d.repeats + 1#8 else 1#8 := by
    rw [h.repeats]
    exact (ite_self _).symm
  rcases candidate_cases d _ hcount with ⟨-, -, hc⟩ | ⟨-, hset, -⟩ | ⟨hbelow, -⟩
  · exact hc
  · exact absurd (h.guard.symm.trans hset) (by decide)
  · exact absurd h.threshold (Nat.not_le.mpr hbelow)

/-- The symbols of a frame leave what the first candidate is counted against. -/
theorem FirstFrame.of_holdsTrits {d0 d : Decoder} {ts : List Trit} (h : FirstFrame d0) (htrits : HoldsTrits d0 ts d) :
    FirstFrame d := by
  rw [htrits.rest]
  exact ⟨h.previousCode, h.repeats, h.guard, h.threshold⟩

/-- Rules R113, R62: the gap of a frame makes a candidate. -/
theorem Estimates.consumeDuration_gap {p : Nat} {d : Decoder} (h : Estimates p d) (hst : d.state = .finalSync2) :
    consumeDuration (31 * p) d = candidate d := by
  have hgap : consumeClass .gap d = candidate d := by simp only [consumeClass, hst]
  rcases consumeDuration_cases (31 * p) d with ⟨hwait, -⟩ | ⟨hwait, -⟩ | ⟨-, hc⟩
  · exact absurd (hwait.symm.trans hst) (by decide)
  · exact absurd (hwait.symm.trans hst) (by decide)
  · rw [hc, h.classify_finalSync2 hst, hgap]

theorem runOps_singleton {i : Instr} {s s' : State} (h : exec i s.quiet = .next s') :
    runOps [i] s = some (s', s'.decoded.toList) := by
  simp only [runOps, h, Option.map_some, List.append_nil]

/-- Rules R113 to R115: the edge that consumes the gap of the first frame delivers its code. -/
theorem runOps_gap {s0 s : State} {p : Nat} {time last : Stamp} (h : OnAir s0 p time 31 s)
    (hst : s.decoder.state = .finalSync2) (hfirst : FirstFrame s.decoder)
    (hkept : p * 4 / 10 ≤ interval s0.config.tw last time) :
    ∃ u, runOps [.edge last] s = some (u, [⟨s.decoder.receivedCode, BitVec.ofNat 32 p⟩]) ∧
      u.decoder.state = .syncWait ∧ u.decoder.inCallback = true ∧ u.decoder.period = p ∧
      u.decoder.receivedCode = s.decoder.receivedCode ∧ u.encoder = s0.encoder ∧ u.enabled = true := by
  obtain ⟨-, hperiod, hmin1, -⟩ := id h.estimate
  have hconsumes : Consumes last s.quiet := by
    refine ⟨h.enabled, h.skip, .inr ?_⟩
    rw [quiet_config, quiet_decoder, h.config, h.newest, interval_wrap_right, hmin1, hperiod]
    exact hkept
  have hfirst' : FirstFrame (windowMoved last s) :=
    ⟨hfirst.previousCode, hfirst.repeats, hfirst.guard, hfirst.threshold⟩
  have hest : Estimates p (windowMoved last s) := h.estimate.withWindow _ _ _
  have hexec := exec_edge_of_consumes hconsumes
  rw [show duration s.quiet = 31 * p from h.pending, show windowMoved last s.quiet = windowMoved last s from rfl,
    hest.consumeDuration_gap hst, hfirst'.candidate_eq] at hexec
  rw [show (windowMoved last s).period = p from hperiod] at hexec
  exact ⟨_, runOps_singleton hexec, rfl, rfl, rfl, rfl, h.encoder, h.enabled⟩

end Sys2Proof.Machine

/-! ## The obligation -/

namespace Sys2Proof.Claims

open Sys2Proof.Machine

/-- Settles O37: the gap gives the period, the edges of the frame the twelve trits, the edge after them state 49, and the
last edge the candidate. -/
theorem timedFrameIsDecoded : Obligations.TimedFrameIsDecoded := by
  intro s code p start last htw hcode hp121 hp511 henabled hskip hst hguard hmin hgap hold hlast
  have hlegal := codeToSymv_no_reserved code
  obtain ⟨b, bs, hbits⟩ : ∃ b bs, frameBits (codeToSymv code) = b :: bs :=
    List.exists_cons_of_ne_nil (by simp [frameBits])
  have hlen : bitLen b + bitsLen bs = 97 := by rw [← bitsLen_frameBits (codeToSymv code), hbits]; rfl
  have hawaits : AwaitsFrame p start s := ⟨htw, hp121, hp511, henabled, hskip, hst, hguard, hmin, hgap, hold⟩
  obtain ⟨u1, hlead1, hair1, hempty, hfirst1⟩ :=
    hawaits.leadsTo_sync (bitLen_bounds b).2 (wrap_wrap _ start) (wrap_wrap _ (start + bitLen b * p))
  obtain ⟨u2, t0, t1, t2, hlead2, hair2, hu2⟩ := hair1.bits htw hp511 hbits.symm
  obtain ⟨d, hd, htrits⟩ := hempty.append (sentTrits (codeToSymv code)) (by simp [sentTrits_length])
  rw [map_bitClass_tritBits, hd] at hu2
  have htime : start + 128 * p = start + bitLen b * p + bitsLen bs * p + 31 * p := by
    rw [Nat.add_assoc start, ← Nat.add_mul, hlen]
    ring
  obtain ⟨u3, w0, w1, w2, hlead3, hair3, hu3⟩ := hair2.bit htw hp511 (congrArg _ htime) (by decide)
  have hst2 : u2.decoder.state = .finalSync1 := by rw [hu2]; exact htrits.state
  have hshort : consumeClass (bitClass false) u2.decoder = ({ u2.decoder with state := .finalSync2 }, none) := by
    simp only [consumeClass, bitClass, hst2]
    rfl
  rw [hshort, hu2] at hu3
  have hst3 : u3.decoder.state = .finalSync2 := by rw [hu3]; rfl
  have hcode3 : u3.decoder.receivedCode = code.setWidth 32 := by
    rw [hu3, ← BitVec.ofNat_toNat, ← codeOfDigits_sentTrits hcode]
    exact htrits.code
  have hfirst3 : FirstFrame u3.decoder := by
    obtain ⟨hprevious, hrepeats, hclear, hone⟩ := hfirst1.of_holdsTrits htrits
    rw [hu3]
    exact ⟨hprevious, hrepeats, hclear, hone⟩
  rw [← htime] at hair3
  obtain ⟨u, hu, hst', hguard', hperiod, hcode', hencoder, henabled'⟩ := runOps_gap hair3 hst3 hfirst3 hlast
  rw [hcode3] at hu hcode'
  refine ⟨u, ?_, hst', hguard', hperiod, hcode', hencoder, henabled'⟩
  have hlead := (hlead1.trans hlead2).trans hlead3
  rw [← hu, ← hlead, pseudoFrame_eq _ _ _ hlegal, hbits, bitEdges_cons]
  simp only [List.append_assoc, List.cons_append, List.nil_append]

end Sys2Proof.Claims
end

section
/-!
PROOFS. The codec (40_codec.md): packing (O6), unpacking (O7), the symbols of a code (O8), the comparison of codes (O9)
and their round trip (O10).
-/

namespace Sys2Proof.Machine

open Sys2Proof.Claims

/-! ## The code of a vector -/

/-- The value of digits as the sum of the digits at their places. -/
theorem digitValue_map_range (b n : Nat) (f : Nat → Nat) :
    digitValue b ((List.range n).map f) = ∑ i ∈ Finset.range n, f i * b ^ (n - 1 - i) := by
  induction n with
  | zero => rfl
  | succ n ih =>
    have hshift : ∑ i ∈ Finset.range n, f i * b ^ (n - i) = (∑ i ∈ Finset.range n, f i * b ^ (n - 1 - i)) * b := by
      rw [Finset.sum_mul]
      refine Finset.sum_congr rfl fun i hi => ?_
      have hexp : n - i = n - 1 - i + 1 := by have := Finset.mem_range.mp hi; omega
      rw [hexp, Nat.pow_succ, Nat.mul_assoc]
    rw [List.range_succ, List.map_append, List.map_singleton, digitValue_concat, ih, Finset.sum_range_succ,
      Nat.add_sub_cancel, hshift, Nat.sub_self, Nat.pow_zero, Nat.mul_one]

/-- Rule R56: the code of a vector, digit by digit, is the sum of its symbols at their places. -/
theorem codeOfSymv_eq_base3 (v : BitVec 24) : codeOfSymv v = base3 v :=
  digitValue_map_range 3 12 fun i => (symAt v i).toNat

/-- Rules R80, R82: a code of twelve digits is the code of its symbols. -/
theorem codeOfSymv_codeToSymv {c : BitVec 20} (hc : c.toNat < 531441) : codeOfSymv (codeToSymv c) = c.toNat := by
  rw [codeOfSymv, symDigits_codeToSymv, codeOfDigits_codeDigit]
  exact Nat.mod_eq_of_lt hc

/-- Rule R82: only the code modulo `3^12` counts. -/
theorem codeToSymv_eq_of_mod {c c' : BitVec 20} (h : c.toNat % 531441 = c'.toNat % 531441) :
    codeToSymv c = codeToSymv c' := by
  have h' : c.toNat % 3 ^ 12 = c'.toNat % 3 ^ 12 := h
  refine congrArg packDigits (List.map_congr_left fun i hi => ?_)
  have hi := mem_symIndices.mp hi
  rw [← codeDigit_mod _ i hi, h', codeDigit_mod _ i hi]

/-! ## Packing -/

/-- Rule R80: a legal vector is packed. -/
theorem exec_encodeTelegram_of_legal {v : BitVec 24} (p r : Word) (s : State) (h : AllTrits v) :
    exec (.encodeTelegram v p r) s = .next (s.withResult (.word (packTelegram v p r))) :=
  if_neg (Bool.eq_false_iff.mp ((hasReservedSymbol_eq_false v).mpr h))

/-- Rules R66, R167: a vector with the reserved symbol is turned away. -/
theorem exec_encodeTelegram_of_reserved {v : BitVec 24} (p r : Word) (s : State) (h : ¬ AllTrits v) :
    exec (.encodeTelegram v p r) s = .next s :=
  if_pos (Bool.eq_true_of_not_eq_false fun hv => h ((hasReservedSymbol_eq_false v).mp hv))

/-- Rule R80 with in-range operands: the three fields side by side. -/
theorem packTelegram_toNat {v : BitVec 24} {p r : Word} (hv : AllTrits v) (hp : p.toNat ≤ 511) (hr : r.toNat ≤ 7) :
    (packTelegram v p r).toNat = p.toNat * 2 ^ 23 + r.toNat * 2 ^ 20 + codeOfSymv v := by
  have hlegal := (hasReservedSymbol_eq_false v).mpr hv
  have hcode := codeOfSymv_lt hlegal
  rw [packTelegram_eq_assembleWord hlegal hp hr, assembleWord_toNat, BitVec.toNat_setWidth, BitVec.toNat_setWidth,
    BitVec.toNat_ofNat]
  omega

/-- With period and exponent 0 the word is the code alone. -/
theorem packTelegram_zero (v : BitVec 24) : packTelegram v 0#32 0#32 = BitVec.ofNat 32 (codeOfSymv v) := by
  simp [packTelegram]

/-! ## Unpacking and comparing -/

theorem periodField_toNat (w : Word) : (periodField w).toNat = w.toNat / 2 ^ 23 := by
  rw [periodField, BitVec.extractLsb'_toNat, Nat.shiftRight_eq_div_pow]
  have hw := w.isLt
  omega

theorem repeatField_toNat (w : Word) : (repeatField w).toNat = w.toNat / 2 ^ 20 % 8 := by
  rw [repeatField, BitVec.extractLsb'_toNat, Nat.shiftRight_eq_div_pow]

theorem codeField_toNat (w : Word) : (codeField w).toNat = w.toNat % 2 ^ 20 := by
  rw [codeField, BitVec.extractLsb'_toNat, Nat.shiftRight_zero]

/-- Rule R81: the fields of a word as numbers. -/
theorem exec_unpackTelegram (w : Word) (s : State) :
    exec (.unpackTelegram w) s = .next (s.withResult (.fields (BitVec.ofNat 32 (w.toNat / 2 ^ 23))
      (BitVec.ofNat 32 (w.toNat / 2 ^ 20 % 8)) (BitVec.ofNat 32 (w.toNat % 2 ^ 20)))) := by
  rw [← periodField_toNat, ← repeatField_toNat, ← codeField_toNat, BitVec.ofNat_toNat, BitVec.ofNat_toNat,
    BitVec.ofNat_toNat]
  rfl

/-- Rule R83: the mask leaves bits 19:0. -/
theorem sameCode_iff (a b : Word) : sameCode a b = true ↔ a.toNat % 2 ^ 20 = b.toNat % 2 ^ 20 := by
  have hmask (w : Word) : (w &&& 0xFFFFF#32).toNat = w.toNat % 2 ^ 20 := Nat.and_two_pow_sub_one_eq_mod w.toNat 20
  rw [sameCode, beq_iff_eq, ← BitVec.toNat_inj, hmask, hmask]

theorem exec_isSameCode (a b : Word) (s : State) :
    exec (.isSameCode a b) s =
      .next (s.withResult (.word (if a.toNat % 2 ^ 20 = b.toNat % 2 ^ 20 then 1#32 else 0#32))) := by
  have h : exec (.isSameCode a b) s = .next (s.withResult (.word (if sameCode a b then 1#32 else 0#32))) := rfl
  simp only [h, sameCode_iff]

/-- Codes alike in their 20 bits are the same code. -/
theorem exec_isSameCode_of_eq {a b : Word} (s : State) (h : a.toNat % 2 ^ 20 = b.toNat % 2 ^ 20) :
    exec (.isSameCode a b) s = .next (s.withResult (.word 1#32)) := by
  rw [exec_isSameCode, if_pos h]

end Sys2Proof.Machine

/-! ## The obligations -/

namespace Sys2Proof.Claims

open Sys2Proof.Machine

/-- Settles O6: the word is the OR of rule R80 by definition, and with in-range operands its fields do not overlap. -/
theorem encodeTelegramPacksFields : Obligations.EncodeTelegramPacksFields := by
  refine ⟨decode_request_encodeTelegram, fun symv p r s => ⟨fun hv => ?_, exec_encodeTelegram_of_reserved p r s⟩⟩
  rw [← codeOfSymv_eq_base3]
  exact ⟨packTelegram symv p r, exec_encodeTelegram_of_legal p r s hv, rfl, packTelegram_toNat hv⟩

/-- Settles O7: any word splits, since the fields are read from it as it stands. -/
theorem unpackTelegramSplitsWord : Obligations.UnpackTelegramSplitsWord :=
  ⟨fun _ _ _ => rfl, exec_unpackTelegram⟩

/-- Settles O8: the vector of a code has the code's digits, none of them reserved, and they are those of the code modulo
`3^12`. -/
theorem codeToSymbolsGivesBase3Digits : Obligations.CodeToSymbolsGivesBase3Digits := by
  refine ⟨decode_request_codeToSymbols, fun c s => ?_, fun c c' s h => ?_⟩
  · refine ⟨codeToSymv c, rfl, fun i hi => symAt_codeToSymv c hi, fun hc => ?_⟩
    have hlegal : AllTrits (codeToSymv c) := (hasReservedSymbol_eq_false _).mp (codeToSymv_no_reserved c)
    rw [exec_encodeTelegram_of_legal _ _ s hlegal, packTelegram_zero, codeOfSymv_codeToSymv hc, BitVec.ofNat_toNat]
    rfl
  · have hexec (x : BitVec 20) : exec (.codeToSymbols x) s = execCodeToSymbols x s := rfl
    rw [hexec, hexec, execCodeToSymbols, execCodeToSymbols, codeToSymv_eq_of_mod h]

/-- Settles O9: the comparison is an equation between the low 20 bits, which is symmetric and reflexive. -/
theorem isSameCodeComparesLow20Bits : Obligations.IsSameCodeComparesLow20Bits := by
  refine ⟨fun _ _ _ => rfl, fun a b s => ⟨exec_isSameCode a b s, ?_, exec_isSameCode_of_eq s rfl⟩⟩
  simp only [exec_isSameCode, eq_comm (a := a.toNat % 2 ^ 20)]

/-- Settles O10: a legal vector packs to the word of its fields, whose low 20 bits are the code of its symbols. -/
theorem codecRoundTrip : Obligations.CodecRoundTrip := by
  intro symv p r s hv hp hr
  have hlegal := (hasReservedSymbol_eq_false symv).mpr hv
  have hcode := codeOfSymv_lt hlegal
  rw [← codeOfSymv_eq_base3]
  refine ⟨packTelegram symv p r, exec_encodeTelegram_of_legal p r s hv,
    execUnpackTelegram_packTelegram s hlegal hp hr, execCodeToSymbols_codeOfSymv s hlegal,
    exec_isSameCode_of_eq s ?_⟩
  rw [packTelegram_toNat hv hp hr, BitVec.toNat_ofNat]
  omega

end Sys2Proof.Claims
end

section
/-!
PROOFS. The protocol forms (40_codec.md): `GET_TELEGRAM` is the form its tag selects (O11) and packs legal symbols
(O12); the symbols of each form under the default layouts (O14, O15), where the group of `KaKu` is the upper half of a
device number (O16).
-/

namespace Sys2Proof.Machine

/-! ## The telegram of a form -/

/-- The vector a layout gives for a tuple's fields (rules R57, R84). -/
def layoutVector (layout : Layout) (fs : TupleFields) : BitVec 24 := packTrits (layoutSymbols layout fs)

/-- The port after an operation that gives the telegram word of a vector (last line of rule R84). -/
def State.withTelegram (s : State) (v : BitVec 24) (p r : Word) : State := s.withResult (.word (packTelegram v p r))

section Forms

variable {s : State} {ls : Layouts}

theorem exec_getKaku (on : Bool) (address : BitVec 8) (device : BitVec 16) (p r : Word) (h : s.config.layouts = ls) :
    exec (.getKaku on address device p r) s =
      .next (s.withTelegram (layoutVector ls.kaku (kakuFields address device on)) p r) := by
  subst h
  rfl

theorem exec_getKakuGroup (on : Bool) (group : BitVec 4) (address : BitVec 8) (device : BitVec 16) (p r : Word)
    (h : s.config.layouts = ls) :
    exec (.getKakuGroup on group address device p r) s =
      .next (s.withTelegram (layoutVector ls.kakuGroup (kakuGroupFields address group device on)) p r) := by
  subst h
  rfl

theorem exec_getAction (on : Bool) (sys : BitVec 5) (device : BitVec 8) (p r : Word) (h : s.config.layouts = ls) :
    exec (.getAction on sys device p r) s =
      .next (s.withTelegram (layoutVector ls.action (letterFields sys device on)) p r) := by
  subst h
  rfl

theorem exec_getBlokker (on : Bool) (device : BitVec 16) (p r : Word) (h : s.config.layouts = ls) :
    exec (.getBlokker on device p r) s =
      .next (s.withTelegram (layoutVector ls.blokker (blokkerFields device on)) p r) := by
  subst h
  rfl

theorem exec_getElro (on : Bool) (sys : BitVec 5) (device : BitVec 8) (p r : Word) (h : s.config.layouts = ls) :
    exec (.getElro on sys device p r) s =
      .next (s.withTelegram (layoutVector ls.elro (letterFields sys device on)) p r) := by
  subst h
  rfl

end Forms

/-- Rules R63, R73, R84: the layout that the tag, and for `KaKu` `hasGroup`, select is that of the decoded form. -/
theorem execGetTelegram_eq_exec_decodeTuple (tuple p r : Word) (s : State) :
    execGetTelegram tuple p r s = exec (decodeTuple tuple p r) s := by
  rw [execGetTelegram, tupleSymbols, decodeTuple]
  rcases htag : (tuple.extractLsb' 0 2).toNat with _ | _ | _ | n
  · cases tuple.getLsbD 3 <;> rfl
  all_goals rfl

/-! ## The symbols of a layout -/

/-- The 2-bit value of a symbol (rule R57). -/
def tritSymbol (t : Trit) : BitVec 2 := BitVec.ofNat 2 t.toNat

theorem tritSymbol_toNat (t : Trit) : (tritSymbol t).toNat = t.toNat := by cases t <;> rfl

/-- Symbol `i` of a layout given by its sources is the symbol of source `i`. -/
theorem symAt_layoutOf (source : Nat → TritSource) (fs : TupleFields) {i : Nat} (hi : i < 12) :
    symAt (layoutVector (layoutOf source) fs) i = tritSymbol (sourceSymbol fs (source i)) := by
  apply BitVec.eq_of_toNat_eq
  rw [layoutVector, symAt_packTrits (layoutSymbols_length _ fs) (layoutSymbols_layoutOf source fs hi), tritSymbol_toNat]

theorem symAt_of_const {source : Nat → TritSource} (fs : TupleFields) {i : Nat} (t : Trit) (hi : i < 12)
    (h : source i = .const t) : symAt (layoutVector (layoutOf source) fs) i = tritSymbol t := by
  rw [symAt_layoutOf source fs hi, h, sourceSymbol]

/-- Rule R90 (c): a symbol that goes by the bit `b` of a field. -/
theorem symAt_of_bit {source : Nat → TritSource} {fs : TupleFields} {i : Nat} {b : Bool} (field : Field) (k : Nat)
    (one zero : Trit) (hi : i < 12) (h : source i = .bit field k one zero) (hb : (fieldValue fs field).testBit k = b) :
    symAt (layoutVector (layoutOf source) fs) i = if b then tritSymbol one else tritSymbol zero := by
  subst hb
  rw [symAt_layoutOf source fs hi, h, sourceSymbol]
  exact apply_ite _ _ _ _

theorem testBit_fieldValue_on (fs : TupleFields) : (fieldValue fs .on).testBit 0 = fs.on := by
  cases h : fs.on <;> simp [fieldValue, h]

/-! ## Zero-based letters and numbers (rule R64) -/

theorem letterIndex_toNat (letter : BitVec 8) : (letterIndex letter).toNat = (letter.toNat + 191) % 256 := by
  rw [letterIndex, BitVec.toNat_sub, BitVec.toNat_ofNat]
  omega

theorem numberIndex_toNat (number : BitVec 16) : (numberIndex number).toNat = (number.toNat + 65535) % 65536 := by
  rw [numberIndex, BitVec.toNat_sub, BitVec.toNat_ofNat]
  omega

theorem groupIndex_toNat (group : BitVec 4) : (groupIndex group).toNat = (group.toNat + 15) % 16 := by
  rw [groupIndex, BitVec.toNat_sub, BitVec.toNat_ofNat]
  omega

/-! ## The default layouts -/

/-- Rules R85, R86: the last four symbols of both `KaKu` tables. -/
theorem symAt_kakuTail {source : Nat → TritSource} (fs : TupleFields) (h : ∀ i, 8 ≤ i → source i = kakuTail i) :
    symAt (layoutVector (layoutOf source) fs) 8 = 0#2 ∧ symAt (layoutVector (layoutOf source) fs) 9 = 2#2 ∧
    symAt (layoutVector (layoutOf source) fs) 10 = 2#2 ∧
    symAt (layoutVector (layoutOf source) fs) 11 = if fs.on then 2#2 else 0#2 :=
  ⟨symAt_of_const fs .low (by decide) (h 8 (by decide)), symAt_of_const fs .float (by decide) (h 9 (by decide)),
    symAt_of_const fs .float (by decide) (h 10 (by decide)),
    symAt_of_bit .on 0 .float .low (by decide) (h 11 (by decide)) (testBit_fieldValue_on fs)⟩

/-- Rule R85. -/
theorem symAt_layoutKaku (fs : TupleFields) :
    (∀ i, i < 4 → symAt (layoutVector layoutKaku fs) i = if fs.address.testBit i then 2#2 else 0#2) ∧
    (∀ i, i < 4 → symAt (layoutVector layoutKaku fs) (i + 4) = if fs.device.testBit i then 2#2 else 0#2) := by
  refine ⟨fun i hi => symAt_of_bit .address i .float .low (by omega) ?_ rfl,
    fun i hi => symAt_of_bit .device i .float .low (by omega) ?_ rfl⟩
  · simp [hi]
  · simp [show i + 4 < 8 by omega]

/-- Rule R86. -/
theorem symAt_layoutKakuGroup (fs : TupleFields) :
    (∀ i, i < 4 → symAt (layoutVector layoutKakuGroup fs) i = if fs.address.testBit i then 2#2 else 0#2) ∧
    (∀ i, i < 2 → symAt (layoutVector layoutKakuGroup fs) (i + 4) = if fs.device.testBit i then 2#2 else 0#2) ∧
    (∀ i, i < 2 → symAt (layoutVector layoutKakuGroup fs) (i + 6) = if fs.group.testBit i then 2#2 else 0#2) := by
  refine ⟨fun i hi => symAt_of_bit .address i .float .low (by omega) ?_ rfl,
    fun i hi => symAt_of_bit .device i .float .low (by omega) ?_ rfl,
    fun i hi => symAt_of_bit .group i .float .low (by omega) ?_ rfl⟩
  · simp [hi]
  · simp [show i + 4 < 6 by omega]
  · simp [show ¬ i + 6 < 4 by omega, show i + 6 < 8 by omega]

/-- Rules R87, R89: symbols 5 to 9 of a table whose devices are one-hot. -/
theorem symAt_deviceOneHot {source : Nat → TritSource} {fs : TupleFields} (hdevice : fs.device < 256)
    (h : ∀ i, i < 5 → source (i + 5) = deviceOneHot i) (i : Nat) (hi : i < 5) :
    symAt (layoutVector (layoutOf source) fs) (i + 5) = if i = fs.device then 0#2 else 2#2 := by
  rw [symAt_layoutOf source fs (by omega), h i hi, sourceSymbol_deviceOneHot i hdevice]
  exact apply_ite _ _ _ _

/-- Rule R87. -/
theorem symAt_layoutAction {fs : TupleFields} (hdevice : fs.device < 256) :
    (∀ i, i < 5 → symAt (layoutVector layoutAction fs) i = if fs.systemCode.testBit i then 1#2 else 2#2) ∧
    (∀ i, i < 5 → symAt (layoutVector layoutAction fs) (i + 5) = if i = fs.device then 0#2 else 2#2) ∧
    (symAt (layoutVector layoutAction fs) 10 = if fs.on then 2#2 else 0#2) ∧
    symAt (layoutVector layoutAction fs) 11 = if fs.on then 0#2 else 2#2 := by
  refine ⟨fun i hi => symAt_of_bit .systemCode i .high .float (by omega) ?_ rfl,
    symAt_deviceOneHot hdevice fun i hi => ?_,
    symAt_of_bit .on 0 .float .low (by decide) rfl (testBit_fieldValue_on fs),
    symAt_of_bit .on 0 .low .float (by decide) rfl (testBit_fieldValue_on fs)⟩
  · simp [hi]
  · simp [show i + 5 < 10 by omega]

/-- Rule R88. -/
theorem symAt_layoutBlokker (fs : TupleFields) :
    (∀ i, i < 3 → symAt (layoutVector layoutBlokker fs) (i + 1) = if fs.device.testBit i then 0#2 else 1#2) ∧
    (symAt (layoutVector layoutBlokker fs) 8 = if fs.on then 1#2 else 0#2) ∧
    ∀ i ∈ [0, 4, 5, 6, 7, 9, 10, 11], symAt (layoutVector layoutBlokker fs) i = 0#2 := by
  refine ⟨fun i hi => symAt_of_bit .device i .low .high (by omega) ?_ rfl,
    symAt_of_bit .on 0 .high .low (by decide) rfl (testBit_fieldValue_on fs), fun i hi => ?_⟩
  · simp [show i + 1 ≤ 3 by omega]
  · have hrow : i < 12 ∧ ¬ (1 ≤ i ∧ i ≤ 3) ∧ i ≠ 8 := by
      simp only [List.mem_cons, List.not_mem_nil, or_false] at hi
      omega
    obtain ⟨h12, hdevice, hon⟩ := hrow
    exact symAt_of_const fs .low h12 ((if_neg hdevice).trans (if_neg hon))

/-- Rule R89. -/
theorem symAt_layoutElro {fs : TupleFields} (hdevice : fs.device < 256) :
    (∀ i, i < 5 → symAt (layoutVector layoutElro fs) i = if fs.systemCode.testBit i then 0#2 else 2#2) ∧
    (∀ i, i < 5 → symAt (layoutVector layoutElro fs) (i + 5) = if i = fs.device then 0#2 else 2#2) ∧
    (symAt (layoutVector layoutElro fs) 10 = if fs.on then 0#2 else 2#2) ∧
    symAt (layoutVector layoutElro fs) 11 = if fs.on then 2#2 else 0#2 := by
  refine ⟨fun i hi => symAt_of_bit .systemCode i .low .float (by omega) ?_ rfl,
    symAt_deviceOneHot hdevice fun i hi => ?_,
    symAt_of_bit .on 0 .low .float (by decide) rfl (testBit_fieldValue_on fs),
    symAt_of_bit .on 0 .float .low (by decide) rfl (testBit_fieldValue_on fs)⟩
  · simp [hi]
  · simp [show i + 5 < 10 by omega]

/-! ## The two halves of a device number -/

/-- The symbols of a layout given by its sources, as a list. -/
theorem layoutSymbols_layoutOf_eq (source : Nat → TritSource) (fs : TupleFields) :
    layoutSymbols (layoutOf source) fs = (List.range 12).map fun i => sourceSymbol fs (source i) := by
  refine List.ext_getElem? fun i => ?_
  by_cases hi : i < 12
  · rw [layoutSymbols_layoutOf source fs hi]
    simp [hi]
  · rw [List.getElem?_eq_none (by simpa using hi), List.getElem?_eq_none (by simpa using hi)]

/-- Two bits alike give the same symbol. -/
theorem sourceSymbol_bit_congr {fs fs' : TupleFields} {field field' : Field} {k k' : Nat} (one zero : Trit)
    (h : (fieldValue fs field).testBit k = (fieldValue fs' field').testBit k') :
    sourceSymbol fs (.bit field k one zero) = sourceSymbol fs' (.bit field' k' one zero) := by
  simp only [sourceSymbol, h]

/-- Rule R86's remark: the group table reads the device number's low two bits, and the group where the plain table reads
the next two. -/
theorem layoutSymbols_kakuGroup_eq_kaku {fs fs' : TupleFields} (haddress : fs.address = fs'.address)
    (hon : fs.on = fs'.on) (hlow : ∀ k, k < 2 → fs.device.testBit k = fs'.device.testBit k)
    (hhigh : ∀ k, k < 2 → fs.group.testBit k = fs'.device.testBit (k + 2)) :
    layoutSymbols layoutKakuGroup fs = layoutSymbols layoutKaku fs' := by
  rw [layoutKakuGroup, layoutKaku, layoutSymbols_layoutOf_eq, layoutSymbols_layoutOf_eq]
  refine List.map_congr_left fun i _ => ?_
  rcases (by omega : i < 4 ∨ (4 ≤ i ∧ i < 6) ∨ (6 ≤ i ∧ i < 8) ∨ 8 ≤ i) with h | ⟨h, h6⟩ | ⟨h, h8⟩ | h
  · simp only [h, if_true]
    exact sourceSymbol_bit_congr _ _ (congrArg (·.testBit i) haddress)
  · simp only [show ¬ i < 4 by omega, h6, show i < 8 by omega, if_true, if_false]
    exact sourceSymbol_bit_congr _ _ (hlow (i - 4) (by omega))
  · have hplace : i - 4 = i - 6 + 2 := by omega
    simp only [show ¬ i < 4 by omega, show ¬ i < 6 by omega, h8, if_true, if_false, hplace]
    exact sourceSymbol_bit_congr _ _ (hhigh (i - 6) (by omega))
  · simp only [show ¬ i < 4 by omega, show ¬ i < 6 by omega, show ¬ i < 8 by omega, if_false, kakuTail]
    split
    · rfl
    · split
      · rfl
      · exact sourceSymbol_bit_congr _ _ (congrArg (fun on : Bool => on.toNat.testBit 0) hon)

/-- The zero-based index of a 1-based number that fits. -/
theorem numberIndex_ofNat_succ {n : Nat} (h : n < 2 ^ 16 - 1) : (numberIndex (BitVec.ofNat 16 (n + 1))).toNat = n := by
  rw [numberIndex_toNat, BitVec.toNat_ofNat]
  omega

theorem groupIndex_ofNat_succ {n : Nat} (h : n < 2 ^ 4 - 1) : (groupIndex (BitVec.ofNat 4 (n + 1))).toNat = n := by
  rw [groupIndex_toNat, BitVec.toNat_ofNat]
  omega

end Sys2Proof.Machine

/-! ## The obligations -/

namespace Sys2Proof.Claims

open Sys2Proof.Machine

/-- Settles O11. -/
theorem getTelegramIsItsForm : Obligations.GetTelegramIsItsForm :=
  execGetTelegram_eq_exec_decodeTuple

/-- Settles O12: a tuple's twelve trits, whatever layout gave them, pack to a legal vector. -/
theorem getTelegramIsPureAndWellFormed : Obligations.GetTelegramIsPureAndWellFormed := by
  intro ls tuple
  have hlegal := (hasReservedSymbol_eq_false _).mp (packTrits_no_reserved (tupleSymbols_length ls tuple))
  refine ⟨packTrits (tupleSymbols ls tuple), hlegal, fun p r s hls => ?_⟩
  rw [exec_encodeTelegram_of_legal p r s hlegal, ← hls]
  exact ⟨rfl, rfl⟩

/-- Settles O14: the rows of the two tables, read at the zero-based letter and numbers. -/
theorem kaKuSymbolsByDefaultLayout : Obligations.KaKuSymbolsByDefaultLayout := by
  refine ⟨fun on address device p r s hls => ?_, fun on group address device p r s hls => ?_⟩
  · obtain ⟨haddress, hdevice⟩ := symAt_layoutKaku (kakuFields address device on)
    rw [← letterIndex_toNat, ← numberIndex_toNat]
    exact ⟨_, exec_getKaku on address device p r hls, haddress, hdevice,
      symAt_kakuTail _ fun i hi => by simp [show ¬ i < 4 by omega, show ¬ i < 8 by omega]⟩
  · obtain ⟨haddress, hdevice, hgroup⟩ := symAt_layoutKakuGroup (kakuGroupFields address group device on)
    rw [← letterIndex_toNat, ← numberIndex_toNat, ← groupIndex_toNat]
    exact ⟨_, exec_getKakuGroup on group address device p r hls, haddress, hdevice, hgroup,
      symAt_kakuTail _ fun i hi => by simp [show ¬ i < 4 by omega, show ¬ i < 6 by omega, show ¬ i < 8 by omega]⟩

/-- Settles O15: the rows of the three tables. A device letter is 8 bits, so the one-hot comparison sees all of it. -/
theorem otherFormsSymbolsByDefaultLayout : Obligations.OtherFormsSymbolsByDefaultLayout := by
  refine ⟨fun on sys device p r s hls => ?_, fun on device p r s hls => ?_, fun on sys device p r s hls => ?_⟩
  · rw [← letterIndex_toNat]
    exact ⟨_, exec_getAction on sys device p r hls,
      symAt_layoutAction (fs := letterFields sys device on) (letterIndex device).isLt⟩
  · rw [← numberIndex_toNat]
    exact ⟨_, exec_getBlokker on device p r hls, symAt_layoutBlokker (blokkerFields device on)⟩
  · rw [← letterIndex_toNat]
    exact ⟨_, exec_getElro on sys device p r hls,
      symAt_layoutElro (fs := letterFields sys device on) (letterIndex device).isLt⟩

/-- Settles O16: `d + 4 * g` has `d` in its two low bits and `g` in the next two. -/
theorem kaKuGroupSplitsDeviceNumber : Obligations.KaKuGroupSplitsDeviceNumber := by
  intro on address d g p r s hls hd hg
  rw [exec_getKakuGroup _ _ _ _ p r hls, exec_getKaku _ _ _ p r hls]
  have hsymbols : layoutSymbols layoutKakuGroup
      (kakuGroupFields address (BitVec.ofNat 4 (g + 1)) (BitVec.ofNat 16 (d + 1)) on) =
      layoutSymbols layoutKaku (kakuFields address (BitVec.ofNat 16 (d + 4 * g + 1)) on) := by
    refine layoutSymbols_kakuGroup_eq_kaku rfl rfl (fun k hk => ?_) fun k hk => ?_
    · simp only [kakuGroupFields, kakuFields]
      rw [numberIndex_ofNat_succ (by omega), numberIndex_ofNat_succ (by omega)]
      exact testBit_eq_of_mod hk (by omega)
    · simp only [kakuGroupFields, kakuFields]
      rw [groupIndex_ofNat_succ (by omega), numberIndex_ofNat_succ (by omega), ← Nat.testBit_div_two_pow]
      exact congrArg (Nat.testBit · k) (by omega)
  exact congrArg (fun ts => Host.Outcome.next (s.withTelegram (packTrits ts) p r)) hsymbols

end Sys2Proof.Claims
end

section
/-!
PROOFS. The signal decoder (41_decoder.md), edge by edge: ignored, skipped or discarded (O17 to O19); the sync gap (O20);
the intervals of a symbol (O21, O22) and of the terminating sync (O23, O24); the candidate (O25); the frame of `EDGE` and
the source of its event (O26), and what it depends on (O28); glitches (O29) and the least thresholds (O30).
-/

namespace Sys2Proof.Machine

open Sys2Proof.Safety Sys2Proof.Claims

/-! ## An edge as a function of the decoder -/

/-- What an edge makes of the decoder and the event port, from the decoder registers, `enabled` among them, and the operand
(rules R100, R101, R120). -/
def edgeResult (tw : Nat) (enabled : Bool) (now : Stamp) (d : Decoder) : Decoder × Option DecodedEvent :=
  if enabled then edgeStep tw (wrap tw now) d else (d, none)

theorem exec_edge_eq (now : Stamp) (s : State) :
    exec (.edge now) s = .next (s.withDecoder (edgeResult s.config.tw s.enabled now s.decoder)) := by
  cases he : s.enabled with
  | true => exact if_pos he
  | false => exact if_neg (by simp [he])

section Filter

variable {tw : Nat} {now : Stamp} {d : Decoder}

theorem edgeStep_of_skip (hskip : d.skip = true) :
    edgeStep tw now d = ({ d with t1 := d.t2, t2 := now, skip := false }, none) := by
  rcases edgeStep_cases tw now d with ⟨-, h⟩ | ⟨hclear, -⟩ | ⟨hclear, -⟩
  · exact h
  · exact absurd (hskip.symm.trans hclear) (by decide)
  · exact absurd (hskip.symm.trans hclear) (by decide)

theorem edgeStep_of_glitch (hskip : d.skip = false) (hst : d.state ≠ .syncWait)
    (hclose : interval tw now d.t2 < d.min1Period) :
    edgeStep tw now d = ({ d with t1 := d.t2, t2 := now, skip := true }, none) := by
  rcases edgeStep_cases tw now d with ⟨hset, -⟩ | ⟨-, -, -, h⟩ | ⟨-, hwait | hfar, -⟩
  · exact absurd (hset.symm.trans hskip) (by decide)
  · exact h
  · exact absurd hwait hst
  · omega

theorem edgeStep_of_kept (hskip : d.skip = false) (hkept : d.state = .syncWait ∨ d.min1Period ≤ interval tw now d.t2) :
    edgeStep tw now d = consumeDuration (interval tw d.t2 d.t0) { d with t0 := d.t2, t1 := d.t2, t2 := now } := by
  rcases edgeStep_cases tw now d with ⟨hset, -⟩ | ⟨-, hst, hclose, -⟩ | ⟨-, -, h⟩
  · exact absurd (hset.symm.trans hskip) (by decide)
  · have := hkept.resolve_left hst
    omega
  · exact h

/-- Rule R102 overwrites `t[1]` before anything reads it. -/
theorem edgeStep_t1 (t1 : Stamp) : edgeStep tw now { d with t1 := t1 } = edgeStep tw now d := rfl

end Filter

theorem exec_edge_of_enabled (now : Stamp) {s : State} (h : s.enabled = true) :
    exec (.edge now) s = .next (s.withDecoder (edgeStep s.config.tw (wrap s.config.tw now) s.decoder)) := if_pos h

/-- Rule R103. -/
theorem exec_edge_of_skip (now : Stamp) {s : State} (henabled : s.enabled = true) (hskip : s.decoder.skip = true) :
    exec (.edge now) s = .next { s with decoder := { s.decoder with
      t1 := s.decoder.t2, t2 := wrap s.config.tw now, skip := false } } := by
  rw [exec_edge_of_enabled now henabled, edgeStep_of_skip hskip]
  rfl

/-- Rule R104. -/
theorem exec_edge_of_glitch {now : Stamp} {s : State} (henabled : s.enabled = true) (hskip : s.decoder.skip = false)
    (hst : s.decoder.state ≠ .syncWait) (hclose : interval s.config.tw now s.decoder.t2 < s.decoder.min1Period) :
    exec (.edge now) s = .next { s with decoder := { s.decoder with
      t1 := s.decoder.t2, t2 := wrap s.config.tw now, skip := true } } := by
  rw [← interval_wrap_left] at hclose
  rw [exec_edge_of_enabled now henabled, edgeStep_of_glitch hskip hst hclose]
  rfl

/-- Where an edge is next, an enabled decoder does not see `t[1]` (rule R102). -/
theorem runOps_edge_t1 (now t1 : Stamp) (rest : List Instr) {s : State} (henabled : s.enabled = true) :
    runOps (.edge now :: rest) { s with decoder := { s.decoder with t1 := t1 } } = runOps (.edge now :: rest) s := by
  have hexec : exec (.edge now) (State.quiet { s with decoder := { s.decoder with t1 := t1 } }) =
      exec (.edge now) s.quiet := by
    rw [exec_edge_of_enabled (s := s.quiet) now henabled, ← edgeStep_t1 t1]
    exact exec_edge_of_enabled now henabled
  simp only [runOps, hexec]

/-- A glitch sets `skip` and the edge after it clears it: of the two only `t[1]` and `t[2]` are left (rules R103, R104). -/
theorem leadsTo_glitch {s : State} {g2 : Stamp} (e3 : Stamp) (henabled : s.enabled = true)
    (hskip : s.decoder.skip = false) (hst : s.decoder.state ≠ .syncWait)
    (hclose : interval s.config.tw g2 s.decoder.t2 < s.decoder.min1Period) :
    LeadsTo [.edge g2, .edge e3] s { s.quiet with decoder := { s.decoder with
      t1 := wrap s.config.tw g2, t2 := wrap s.config.tw e3 } } := by
  intro rest
  have hglitch := exec_edge_of_glitch (s := s.quiet) henabled hskip hst hclose
  have hskipped := exec_edge_of_skip (s := { s.quiet with decoder := { s.decoder with
    t1 := s.decoder.t2, t2 := wrap s.config.tw g2, skip := true } }) e3 henabled rfl
  have hcleared : ({ s.decoder with t1 := wrap s.config.tw g2, t2 := wrap s.config.tw e3, skip := false } : Decoder) =
      { s.decoder with t1 := wrap s.config.tw g2, t2 := wrap s.config.tw e3 } := by rw [← hskip]
  rw [← hcleared]
  exact (runOps_cons hglitch rfl).trans (runOps_cons hskipped rfl)

/-! ## An edge whose duration is consumed -/

theorem consumeDuration_mid {duration : Nat} {d : Decoder} (hst : d.state ≠ .syncWait) :
    consumeDuration duration d = consumeClass (classify d duration) d := by
  rcases consumeDuration_cases duration d with ⟨hwait, -⟩ | ⟨hwait, -⟩ | ⟨-, h⟩
  · exact absurd hwait hst
  · exact absurd hwait hst
  · exact h

/-- Mid-decode the duration counts by its class, which does not depend on the window. -/
theorem exec_edge_of_classify {now : Stamp} {s : State} {c : IntervalClass} {r : Decoder × Option DecodedEvent}
    (h : Consumes now s) (hst : s.decoder.state ≠ .syncWait) (hclass : classify s.decoder (duration s) = c)
    (hr : consumeClass c (windowMoved now s) = r) : exec (.edge now) s = .next (s.withDecoder r) := by
  have hclass' : classify (windowMoved now s) (duration s) = c := hclass
  rw [exec_edge_of_consumes h, consumeDuration_mid (d := windowMoved now s) hst, hclass', hr]

section Classify

variable {d : Decoder} {n : Fin 48} {duration : Nat}

theorem isShort_iff : isShort d duration = true ↔ duration ≤ d.max1Period := decide_eq_true_iff

theorem isLong_iff : isLong d duration = true ↔ d.min3Period ≤ duration ∧ duration ≤ d.max3Period := by
  simp [isLong]

theorem isTerminalGap_iff :
    isTerminalGap d duration = true ↔ 25 * d.period ≤ duration ∧ duration ≤ 36 * d.period := by
  simp [isTerminalGap]

/-- Rule R108: short is tested before long. -/
theorem classify_of_bit (bit : Bool) (hst : d.state = .symbol n)
    (h : if bit then d.max1Period < duration ∧ d.min3Period ≤ duration ∧ duration ≤ d.max3Period
      else duration ≤ d.max1Period) : classify d duration = bitClass bit := by
  cases bit with
  | false =>
    have hshort : isShort d duration = true := isShort_iff.mpr h
    simp [classify, hst, hshort, bitClass]
  | true =>
    obtain ⟨habove, hlong⟩ : d.max1Period < duration ∧ d.min3Period ≤ duration ∧ duration ≤ d.max3Period := h
    have hshort : ¬ isShort d duration = true := by rw [isShort_iff]; omega
    simp [classify, hst, hshort, isLong_iff.mpr hlong, bitClass]

/-- Rule R108: neither short nor long. -/
theorem classify_of_neither (hst : d.state = .symbol n) (habove : d.max1Period < duration)
    (hout : duration < d.min3Period ∨ d.max3Period < duration) : classify d duration = .bad := by
  have hshort : ¬ isShort d duration = true := by rw [isShort_iff]; omega
  have hlong : ¬ isLong d duration = true := by rw [isLong_iff]; omega
  simp [classify, hst, hshort, hlong]

theorem classify_finalSync1_eq (hst : d.state = .finalSync1) :
    classify d duration = if duration ≤ d.max1Period then .short else .bad := by
  simp only [classify, hst, isShort_iff]

theorem classify_finalSync2_eq (hst : d.state = .finalSync2) :
    classify d duration = if 25 * d.period ≤ duration ∧ duration ≤ 36 * d.period then .gap else .bad := by
  simp only [classify, hst, isTerminalGap_iff]

end Classify

/-! ## Aborts and symbols -/

/-- Rule R116: an interval of no class aborts in every state. -/
theorem consumeClass_bad {d : Decoder} (hst : d.state ≠ .syncWait) : consumeClass .bad d = (abort d, none) := by
  rcases consumeClass_cases .bad d with ⟨hwait, -⟩ | ⟨-, h⟩ | ⟨_, b, -, hb, -⟩ | ⟨-, hs, -⟩ | ⟨-, hg, -⟩
  · exact absurd hwait hst
  · exact h
  · cases b <;> cases hb
  · cases hs
  · cases hg

/-- Rule R112: a short interval in state 48. -/
theorem consumeClass_finalSync1_short {d : Decoder} (hst : d.state = .finalSync1) :
    consumeClass .short d = ({ d with state := .finalSync2 }, none) := by
  simp only [consumeClass, hst]

/-- Rule R116 for an edge: only the window and the state are written. -/
theorem exec_edge_of_bad {now : Stamp} {s : State} (h : Consumes now s) (hst : s.decoder.state ≠ .syncWait)
    (hclass : classify s.decoder (duration s) = .bad) :
    exec (.edge now) s = .next { s with decoder := { windowMoved now s with state := .syncWait } } :=
  exec_edge_of_classify h hst hclass (consumeClass_bad hst)

/-- Rule R108 for an edge in any symbol state: an interval neither short nor long aborts. -/
theorem exec_edge_of_neither {now : Stamp} {s : State} {n : Fin 48} (hst : s.decoder.state = .symbol n)
    (h : Consumes now s) (habove : s.decoder.max1Period < duration s)
    (hout : duration s < s.decoder.min3Period ∨ s.decoder.max3Period < duration s) :
    exec (.edge now) s = .next { s with decoder := { windowMoved now s with state := .syncWait } } :=
  exec_edge_of_bad h (by simp [hst]) (classify_of_neither hst habove hout)

/-- Rules R109, R111 for an edge in the sub-states 0 to 2. -/
theorem exec_edge_bit_mid {now : Stamp} {s : State} {n : Fin 48} (bit : Bool) (hmid : n.val % 4 ≠ 3)
    (hst : s.decoder.state = .symbol n) (h : Consumes now s)
    (hbit : classify s.decoder (duration s) = bitClass bit) :
    exec (.edge now) s = .next { s with decoder := { windowMoved now s with
      receivedBit := shiftIn s.decoder.receivedBit bit, state := .symbol ⟨n.val + 1, by omega⟩ } } :=
  exec_edge_of_classify h (by simp [hst]) hbit
    (consumeClass_bit_mid (d := windowMoved now s) bit (by omega) hst hmid)

/-- Rule R110: the numbers of the three legal patterns are those of their trits. -/
theorem patternTrit_of_legal {p : BitVec 4} {trit : Nat}
    (h : (p = 0b0101#4 ∧ trit = 0) ∨ (p = 0b1010#4 ∧ trit = 1) ∨ (p = 0b0110#4 ∧ trit = 2)) :
    ∃ t, patternTrit p = some t ∧ t.toNat = trit := by
  rcases h with ⟨rfl, rfl⟩ | ⟨rfl, rfl⟩ | ⟨rfl, rfl⟩
  · exact ⟨.low, rfl, rfl⟩
  · exact ⟨.high, rfl, rfl⟩
  · exact ⟨.float, rfl, rfl⟩

theorem patternTrit_of_illegal {p : BitVec 4} (h0 : p ≠ 0b0101#4) (h1 : p ≠ 0b1010#4) (h2 : p ≠ 0b0110#4) :
    patternTrit p = none := by
  simp [patternTrit, h0, h1, h2]

section Fourth

variable {d : Decoder} {k : Fin 12} {bit : Bool}

/-- The fourth interval of a symbol with a legal pattern (rules R109 to R111). -/
theorem consumeClass_fourth_legal {t : Trit} (hst : d.state = .symbol ⟨4 * k.val + 3, by omega⟩)
    (ht : patternTrit (shiftIn d.receivedBit bit) = some t) :
    consumeClass (bitClass bit) d = ({ d with
      receivedBit := shiftIn d.receivedBit bit
      receivedCode := d.receivedCode * 3#32 + BitVec.ofNat 32 t.toNat
      state := afterSymbol k }, none) := by
  rw [consumeClass_bit bit hst, acceptBit_last bit d (by simp only []; omega), ht]
  rfl

/-- The fourth interval of a symbol with any other pattern (rules R109, R110, R116). -/
theorem consumeClass_fourth_illegal (hst : d.state = .symbol ⟨4 * k.val + 3, by omega⟩)
    (ht : patternTrit (shiftIn d.receivedBit bit) = none) :
    consumeClass (bitClass bit) d =
      ({ d with receivedBit := shiftIn d.receivedBit bit, state := .syncWait }, none) := by
  rw [consumeClass_bit bit hst, acceptBit_last bit d (by simp only []; omega), ht]
  rfl

end Fourth

/-! ## The candidate -/

section Candidate

variable {d : Decoder} {count : BitVec 8}
  (hcount : count = if d.receivedCode = d.previousCode then d.repeats + 1#8 else 1#8)

include hcount

/-- Rules R114, R115: with the threshold met the candidate goes to the event. -/
theorem candidate_of_met (h : d.minRepeats.toNat ≤ count.toNat) :
    candidate d = deliver { d with repeats := count, previousCode := d.receivedCode } := by
  rw [candidate, accountRepeat_eq, ← hcount]
  exact if_pos (decide_eq_true h)

/-- Rules R114, R115: below the threshold another frame is awaited. -/
theorem candidate_of_below (h : count.toNat < d.minRepeats.toNat) :
    candidate d = ({ d with repeats := count, previousCode := d.receivedCode, receivedCode := 0, state := .symbol 0 },
      none) := by
  rw [candidate, accountRepeat_eq, ← hcount]
  exact if_neg (by simpa [thresholdMet] using h)

/-- Rule R16 (e): a count that had room is at least 1. -/
theorem one_le_count (hroom : d.repeats.toNat < 255) : 1 ≤ count.toNat := by
  subst hcount
  split
  · rw [BitVec.toNat_add_of_lt (by simp; omega)]
    simp
  · decide

end Candidate

theorem deliver_of_clear {d : Decoder} (h : d.inCallback = false) :
    deliver d = ({ d with inCallback := true, state := .syncWait }, some ⟨d.receivedCode, BitVec.ofNat 32 d.period⟩) :=
  if_neg (by simp [h])

theorem deliver_of_set {d : Decoder} (h : d.inCallback = true) : deliver d = ({ d with state := .syncWait }, none) :=
  if_pos h

/-- Rule R113 for an edge in state 49: a gap of 25 to 36 periods makes a candidate. -/
theorem exec_edge_candidate {now : Stamp} {s : State} {r : Decoder × Option DecodedEvent}
    (hst : s.decoder.state = .finalSync2) (h : Consumes now s) (hmin : 25 * s.decoder.period ≤ duration s)
    (hmax : duration s ≤ 36 * s.decoder.period) (hr : candidate (windowMoved now s) = r) :
    exec (.edge now) s = .next (s.withDecoder r) := by
  have hgap : consumeClass .gap (windowMoved now s) = candidate (windowMoved now s) := by
    simp only [consumeClass, hst]
  exact exec_edge_of_classify h (by simp [hst]) ((classify_finalSync2_eq hst).trans (if_pos ⟨hmin, hmax⟩))
    (hgap.trans hr)

/-! ## The source of the event -/

/-- What `r`, made of `d`, keeps: the threshold and, without an event, the guard; an event is that of a candidate in state
49 with the guard clear (rules R115, R170). -/
structure EventSource (d : Decoder) (r : Decoder × Option DecodedEvent) : Prop where
  threshold : r.1.minRepeats = d.minRepeats
  guard : r.2 = none → r.1.inCallback = d.inCallback
  event : ∀ ev, r.2 = some ev → d.state = .finalSync2 ∧ d.inCallback = false ∧ r.1.inCallback = true ∧
    r.1.state = .syncWait ∧ ev = ⟨d.receivedCode, BitVec.ofNat 32 d.period⟩

namespace EventSource

theorem of_silent {d d' : Decoder} (hthreshold : d'.minRepeats = d.minRepeats) (hguard : d'.inCallback = d.inCallback) :
    EventSource d (d', none) :=
  ⟨hthreshold, fun _ => hguard, nofun⟩

theorem of_acceptBit (n : Fin 48) (bit : Bool) (d : Decoder) : EventSource d (acceptBit n bit d, none) := by
  rcases acceptBit_cases n bit d with ⟨-, h⟩ | ⟨-, _, -, h⟩ | ⟨-, -, h⟩ <;> rw [h] <;> exact .of_silent rfl rfl

theorem of_candidate {d : Decoder} (hst : d.state = .finalSync2) : EventSource d (candidate d) := by
  rcases candidate_cases d _ rfl with ⟨-, hclear, h⟩ | ⟨-, -, h⟩ | ⟨-, h⟩ <;> rw [h]
  · exact ⟨rfl, nofun, fun _ hev => ⟨hst, hclear, rfl, rfl, (Option.some.inj hev).symm⟩⟩
  · exact .of_silent rfl rfl
  · exact .of_silent rfl rfl

theorem of_consumeClass (c : IntervalClass) (d : Decoder) : EventSource d (consumeClass c d) := by
  rcases consumeClass_cases c d with ⟨-, h⟩ | ⟨-, h⟩ | ⟨n, bit, -, -, h⟩ | ⟨-, -, h⟩ | ⟨hst, -, h⟩ <;> rw [h]
  · exact .of_silent rfl rfl
  · exact .of_silent rfl rfl
  · exact .of_acceptBit n bit d
  · exact .of_silent rfl rfl
  · exact .of_candidate hst

theorem of_consumeDuration (duration : Nat) (d : Decoder) : EventSource d (consumeDuration duration d) := by
  rcases consumeDuration_cases duration d with ⟨-, -, h⟩ | ⟨-, -, h⟩ | ⟨-, h⟩ <;> rw [h]
  · exact .of_silent rfl rfl
  · exact .of_silent rfl rfl
  · exact .of_consumeClass _ d

theorem of_edgeStep (tw : Nat) (now : Stamp) (d : Decoder) : EventSource d (edgeStep tw now d) := by
  rcases edgeStep_cases tw now d with ⟨-, h⟩ | ⟨-, -, -, h⟩ | ⟨-, -, h⟩ <;> rw [h]
  · exact .of_silent rfl rfl
  · exact .of_silent rfl rfl
  · obtain ⟨hthreshold, hguard, hevent⟩ :=
      of_consumeDuration (interval tw d.t2 d.t0) { d with t0 := d.t2, t1 := d.t2, t2 := now }
    exact ⟨hthreshold, hguard, hevent⟩

end EventSource

/-! ## The least thresholds -/

/-- A decoder with another threshold (rule R21). -/
def Decoder.withMinRepeats (v : BitVec 8) (d : Decoder) : Decoder := { d with minRepeats := v }

/-- The same outcome, event or none, under another threshold. -/
def underThreshold (v : BitVec 8) (r : Decoder × Option DecodedEvent) : Decoder × Option DecodedEvent :=
  (r.1.withMinRepeats v, r.2)

section LeastThresholds

variable {d : Decoder} {v : BitVec 8}

theorem acceptBit_withMinRepeats (n : Fin 48) (bit : Bool) (v : BitVec 8) (d : Decoder) :
    acceptBit n bit (d.withMinRepeats v) = (acceptBit n bit d).withMinRepeats v := by
  by_cases hlast : n.val % 4 = 3
  · rw [acceptBit_last bit _ hlast, acceptBit_last bit d hlast,
      show (d.withMinRepeats v).receivedBit = d.receivedBit from rfl]
    cases patternTrit (shiftIn d.receivedBit bit) <;> rfl
  · rw [acceptBit_mid bit _ hlast, acceptBit_mid bit d hlast]
    rfl

theorem deliver_withMinRepeats (v : BitVec 8) (d : Decoder) :
    deliver (d.withMinRepeats v) = underThreshold v (deliver d) := by
  cases hguard : d.inCallback with
  | false =>
    rw [deliver_of_clear hguard, deliver_of_clear (d := d.withMinRepeats v) hguard]
    rfl
  | true =>
    rw [deliver_of_set hguard, deliver_of_set (d := d.withMinRepeats v) hguard]
    rfl

variable (hd : d.minRepeats.toNat ≤ 1) (hv : v.toNat ≤ 1)

include hd hv

/-- Rule R115 (a): a count of at least 1 meets the thresholds 0 and 1 alike. -/
theorem candidate_withMinRepeats (hroom : d.repeats.toNat < 255) :
    candidate (d.withMinRepeats v) = underThreshold v (candidate d) := by
  obtain ⟨count, hcount⟩ : ∃ count, count = if d.receivedCode = d.previousCode then d.repeats + 1#8 else 1#8 :=
    ⟨_, rfl⟩
  have hone := one_le_count hcount hroom
  rw [candidate_of_met hcount (hd.trans hone), candidate_of_met (d := d.withMinRepeats v) hcount (hv.trans hone)]
  exact deliver_withMinRepeats v { d with repeats := count, previousCode := d.receivedCode }

theorem consumeClass_withMinRepeats (c : IntervalClass) (hroom : RepeatsHaveRoom d) :
    consumeClass c (d.withMinRepeats v) = underThreshold v (consumeClass c d) := by
  have hst' : (d.withMinRepeats v).state = d.state := rfl
  cases hst : d.state with
  | syncWait => simp only [consumeClass, hst', hst]; rfl
  | symbol n =>
    cases c with
    | short | long => simp only [consumeClass, hst', hst, acceptBit_withMinRepeats]; rfl
    | gap | bad => simp only [consumeClass, hst', hst]; rfl
  | finalSync1 => cases c <;> simp only [consumeClass, hst', hst] <;> rfl
  | finalSync2 =>
    cases c with
    | gap =>
      simp only [consumeClass, hst', hst]
      exact candidate_withMinRepeats hd hv (hroom (by simp [hst]))
    | short | long | bad => simp only [consumeClass, hst', hst]; rfl

theorem consumeDuration_withMinRepeats (duration : Nat) (hroom : RepeatsHaveRoom d) :
    consumeDuration duration (d.withMinRepeats v) = underThreshold v (consumeDuration duration d) := by
  rcases consumeDuration_cases duration d with ⟨hst, hshort, h⟩ | ⟨hst, hgap, h⟩ | ⟨hst, h⟩ <;> rw [h]
  · exact consumeDuration_wait (d := d.withMinRepeats v) hst hshort
  · exact consumeDuration_sync (d := d.withMinRepeats v) hst hgap
  · exact (consumeDuration_mid (d := d.withMinRepeats v) hst).trans (consumeClass_withMinRepeats hd hv _ hroom)

theorem edgeStep_withMinRepeats (tw : Nat) (now : Stamp) (hroom : RepeatsHaveRoom d) :
    edgeStep tw now (d.withMinRepeats v) = underThreshold v (edgeStep tw now d) := by
  rcases edgeStep_cases tw now d with ⟨hskip, h⟩ | ⟨hskip, hst, hclose, h⟩ | ⟨hskip, hkept, h⟩ <;> rw [h]
  · exact edgeStep_of_skip (d := d.withMinRepeats v) hskip
  · exact edgeStep_of_glitch (d := d.withMinRepeats v) hskip hst hclose
  · exact (edgeStep_of_kept (d := d.withMinRepeats v) hskip hkept).trans
      (consumeDuration_withMinRepeats (d := { d with t0 := d.t2, t1 := d.t2, t2 := now }) hd hv _ hroom)

theorem edgeResult_withMinRepeats (tw : Nat) (enabled : Bool) (now : Stamp) (hroom : RepeatsHaveRoom d) :
    edgeResult tw enabled now (d.withMinRepeats v) = underThreshold v (edgeResult tw enabled now d) := by
  cases enabled with
  | true => exact edgeStep_withMinRepeats hd hv tw _ hroom
  | false => rfl

end LeastThresholds

end Sys2Proof.Machine

/-! ## The obligations -/

namespace Sys2Proof.Claims

open Sys2Proof.Machine Sys2Proof.Safety

/-- Settles O20. A duration is below `2^TW`, and 37 tenths of a 31st of it are less than itself. -/
theorem syncGapGivesPeriodAndBands : Obligations.SyncGapGivesPeriodAndBands := by
  intro now s henabled hskip hst
  have hexec := exec_edge_of_consumes (now := now) ⟨henabled, hskip, .inl hst⟩
  refine ⟨fun hshort => ?_, ?_⟩
  · rw [hexec, consumeDuration_wait (d := windowMoved now s) hst hshort]
    rfl
  · rintro hgap p rfl
    have hrange : duration s < 2 ^ s.config.tw := interval_lt _ _ _
    refine ⟨?_, by omega, by omega, by omega⟩
    rw [hexec, consumeDuration_sync (d := windowMoved now s) hst hgap]
    rfl

/-- Settles O21: the class of the interval, then the bit it stands for. -/
theorem intervalIsClassified : Obligations.IntervalIsClassified := by
  intro now s n hmid hst h
  refine ⟨fun hshort => ?_, fun habove hmin hmax => ?_, exec_edge_of_neither hst h⟩
  · rw [exec_edge_bit_mid false hmid hst h (classify_of_bit false hst hshort), shiftIn]
    simp
  · exact exec_edge_bit_mid true hmid hst h (classify_of_bit true hst ⟨habove, hmin, hmax⟩)

/-- Settles O22: the class comes before the shift, the shift before the pattern. -/
theorem fourthIntervalValidatesSymbol : Obligations.FourthIntervalValidatesSymbol := by
  intro now s k bit hst h
  refine ⟨exec_edge_of_neither hst h, ?_⟩
  rintro hbit pat rfl
  have hmid : s.decoder.state ≠ .syncWait := by simp [hst]
  have hclass := classify_of_bit bit hst hbit
  refine ⟨fun trit hlegal => ?_, fun h0 h1 h2 => ?_⟩
  · obtain ⟨t, ht, rfl⟩ := patternTrit_of_legal hlegal
    exact exec_edge_of_classify h hmid hclass (consumeClass_fourth_legal (d := windowMoved now s) hst ht)
  · exact exec_edge_of_classify h hmid hclass
      (consumeClass_fourth_illegal (d := windowMoved now s) hst (patternTrit_of_illegal h0 h1 h2))

/-- Settles O25: counted, and then delivered, dropped or followed by another frame. -/
theorem candidateIsCountedAndDelivered : Obligations.CandidateIsCountedAndDelivered := by
  intro now s count hst h hmin hmax hcount
  refine ⟨fun hmet hclear => ?_, fun hmet hset => ?_, fun hbelow => ?_⟩
  · exact exec_edge_candidate hst h hmin hmax
      ((candidate_of_met (d := windowMoved now s) hcount hmet).trans (deliver_of_clear hclear))
  · exact exec_edge_candidate hst h hmin hmax
      ((candidate_of_met (d := windowMoved now s) hcount hmet).trans (deliver_of_set hset))
  · exact exec_edge_candidate hst h hmin hmax (candidate_of_below (d := windowMoved now s) hcount hbelow)

/-- Settles O26, from what every part of `EDGE` keeps (`EventSource`). -/
theorem edgeFrameAndEventSource : Obligations.EdgeFrameAndEventSource := by
  intro now s hport
  have hexec : exec (.edge now) s = .next { s with
      decoder := (edgeResult s.config.tw s.enabled now s.decoder).1
      decoded := (edgeResult s.config.tw s.enabled now s.decoder).2 } := by
    rw [exec_edge_eq, State.withDecoder, hport, Option.or_none]
  refine ⟨_, _, hexec, ?_⟩
  cases henabled : s.enabled with
  | false => exact ⟨rfl, fun _ => rfl, nofun⟩
  | true =>
    obtain ⟨hthreshold, hguard, hevent⟩ := EventSource.of_edgeStep s.config.tw (wrap s.config.tw now) s.decoder
    exact ⟨hthreshold, hguard, fun ev hev => ⟨rfl, hevent ev hev⟩⟩

/-- Settles O29: the glitch and the edge after it leave only the window changed, and the third edge does not see `t[1]`. -/
theorem glitchVanishesFromDurations : Obligations.GlitchVanishesFromDurations := by
  intro s g2 e3 e4 henabled hskip hst hclose _
  have hglitch := leadsTo_glitch e3 henabled hskip hst hclose
  exact ⟨(hglitch [.edge e4]).trans (runOps_edge_t1 (s := { s.quiet with decoder := { s.decoder with
    t2 := wrap s.config.tw e3 } }) e4 _ _ henabled), hglitch []⟩

/-- Settles O30: both thresholds give the outcome of the threshold 0, but for the threshold itself. -/
theorem minRepeatsZeroActsAsOne : Obligations.MinRepeatsZeroActsAsOne := by
  intro now s hroom
  have hexec (v : BitVec 8) (hv : v.toNat ≤ 1) :
      exec (.edge now) { s with decoder := s.decoder.withMinRepeats v } = .next (s.withDecoder
        (underThreshold v (edgeResult s.config.tw s.enabled now (s.decoder.withMinRepeats 0#8)))) := by
    rw [exec_edge_eq, ← edgeResult_withMinRepeats (d := s.decoder.withMinRepeats 0#8) (Nat.zero_le 1) hv _ _ _ hroom]
    rfl
  exact ⟨_, _, hexec 0#8 (by decide), hexec 1#8 (by decide)⟩

/-- Settles O17. -/
theorem edgeWhileDisabledChangesNothing : Obligations.EdgeWhileDisabledChangesNothing := by
  intro now s hdisabled
  rw [exec_edge_eq, hdisabled]
  rfl

/-- Settles O18. -/
theorem skippedEdgeOnlyMovesWindow : Obligations.SkippedEdgeOnlyMovesWindow :=
  fun now _ => exec_edge_of_skip now

/-- Settles O19. -/
theorem shortGlitchIsDiscarded : Obligations.ShortGlitchIsDiscarded :=
  fun _ _ => exec_edge_of_glitch

/-- Settles O23. -/
theorem finalSyncNeedsShortInterval : Obligations.FinalSyncNeedsShortInterval := by
  intro now s hst h
  have hmid : s.decoder.state ≠ .syncWait := by simp [hst]
  have hclass := classify_finalSync1_eq (duration := duration s) hst
  by_cases hshort : duration s ≤ s.decoder.max1Period
  · rw [if_pos hshort] at hclass ⊢
    exact exec_edge_of_classify h hmid hclass (consumeClass_finalSync1_short hst)
  · rw [if_neg hshort] at hclass ⊢
    exact exec_edge_of_bad h hmid hclass

/-- Settles O24. -/
theorem terminalGapOutOfRangeAborts : Obligations.TerminalGapOutOfRangeAborts := by
  intro now s hst h hout
  exact exec_edge_of_bad h (by simp [hst]) ((classify_finalSync2_eq hst).trans (if_neg (by omega)))

/-- Settles O28: the outcome is `edgeResult` of what the two states share. -/
theorem edgeDependsOnDecoderAlone : Obligations.EdgeDependsOnDecoderAlone := by
  intro now s s' htw hdecoder henabled hport hport'
  refine ⟨_, _, exec_edge_eq now s, exec_edge_eq now s', ?_, ?_⟩ <;>
    simp only [State.withDecoder, htw, hdecoder, henabled, hport, hport']

end Sys2Proof.Claims
end

section
/-!
PROOFS. The operations of the encoder (42_encoder.md): the two sends (O38), the requests the block turns away (O39), and
`TX_STEP` at the end of a segment (O40), at any other time (O41) and as a step of the machine (O52).
-/

namespace Sys2Proof.Machine

open Sys2Proof.Claims

/-! ## The sends -/

/-- The period field of a word is what stands above bit 22 (rule R55). -/
theorem periodField_eq_zero_iff (w : Word) : periodField w = 0#9 ↔ w.toNat < 2 ^ 23 := by
  rw [← BitVec.toNat_inj, periodField_toNat, BitVec.toNat_ofNat]
  omega

theorem not_sendRefused {w : Word} {e : Encoder} (hidle : e.txBusy = false) (hw : 2 ^ 23 ≤ w.toNat) :
    ¬ sendRefused e w = true := by
  rw [sendRefused_iff, periodField_eq_zero_iff]
  rintro (hbusy | hlt)
  · exact absurd (hidle.symm.trans hbusy) (by decide)
  · omega

/-- Rule R131: an accepted `SEND_TELEGRAM`. -/
theorem exec_sendTelegram_of_accepted {w : Word} {s : State} (hidle : s.encoder.txBusy = false)
    (hw : 2 ^ 23 ≤ w.toNat) :
    exec (.sendTelegram w) s = .next { s with enabled := false, encoder := startWord w true s.now } :=
  if_neg (not_sendRefused hidle hw)

/-- Rule R132: an accepted `SEND_CODE`. -/
theorem exec_sendCode_of_accepted {w : Word} {s : State} (hidle : s.encoder.txBusy = false) (hw : 2 ^ 23 ≤ w.toNat) :
    exec (.sendCode w) s = .next { s with encoder := startWord w false s.now } :=
  if_neg (not_sendRefused hidle hw)

/-! ## `TX_STEP` -/

theorem segmentDue_now_iff (s : State) :
    segmentDue s.config.tw s.encoder s.now = true ↔
      s.encoder.txBusy = true ∧
        segmentMicros s.encoder = some (interval s.config.tw s.clk s.encoder.txSegStart) := by
  rw [segmentDue, Bool.and_eq_true, decide_eq_true_iff, State.now, interval_wrap_left]

/-- Rules R136, R137: at the end of the segment in progress. -/
theorem exec_txStep_of_due {s : State} (hbusy : s.encoder.txBusy = true)
    (hdue : segmentMicros s.encoder = some (interval s.config.tw s.clk s.encoder.txSegStart)) :
    exec .txStep s = .next (txAdvance s.now s) :=
  if_pos ((segmentDue_now_iff s).mpr ⟨hbusy, hdue⟩)

/-- At any other time (assumption 9). -/
theorem exec_txStep_of_not_due {s : State}
    (h : ¬ (s.encoder.txBusy = true ∧
      segmentMicros s.encoder = some (interval s.config.tw s.clk s.encoder.txSegStart))) :
    exec .txStep s = .next s :=
  if_neg (mt (segmentDue_now_iff s).mp h)

/-- When the segment end comes first, the step has the effect of `TX_STEP` at that clock value. -/
theorem step_eq_txAdvance {t : Stamp} {s : State} (h : SegmentEndFirst t s) :
    step s = .next (txAdvance t (s.quiet.atClock t)) := by
  obtain ⟨hend, -⟩ := id h
  obtain ⟨len, hbusy, hlen, -, -, -, hinterval, -⟩ := segmentEnd_eq_some hend
  have hnow : (s.quiet.atClock t).now = t := wrap_of_segmentEnd hend
  rw [step_of_segmentEndFirst h, exec_txStep_of_due (s := s.quiet.atClock t) hbusy (hinterval ▸ hlen), hnow]

/-! ## The end of a segment of each kind -/

/-- The segments that are not the last of their symbol or sync (rules R134, R136). -/
theorem lastSegment_eq_false_iff (e : Encoder) :
    lastSegment e = false ↔ ¬ (e.txSym.toNat < 12 ∧ e.txSeg = 3#2) ∧ ¬ (e.txSym = 12#4 ∧ e.txSeg = 1#2) := by
  rw [← Bool.not_eq_true, lastSegment_iff, not_or]

/-- Rule R136: the next segment of the same symbol or sync. -/
theorem txAdvance_of_not_last (now : Stamp) {s : State} (hlast : lastSegment s.encoder = false) :
    txAdvance now s = { s with encoder := nextSegment { s.encoder with txSegStart := now } } := by
  rcases txAdvance_cases now s with ⟨-, h⟩ | ⟨h, -⟩ | ⟨h, -⟩ | ⟨h, -⟩
  case inl => exact h
  all_goals exact absurd (hlast.symm.trans h) (by decide)

/-- Rule R136: after the last segment of a symbol, the next symbol or the sync. -/
theorem txAdvance_of_symbol_end (now : Stamp) {s : State} (hsym : s.encoder.txSym.toNat < 12)
    (hseg : s.encoder.txSeg = 3#2) :
    txAdvance now s = { s with encoder := nextSymbol { s.encoder with txSegStart := now } } := by
  rcases txAdvance_cases now s with ⟨h, -⟩ | ⟨-, -, h⟩ | ⟨-, h, -⟩ | ⟨-, h, -⟩
  · exact absurd ((lastSegment_iff _).mpr (.inl ⟨hsym, hseg⟩)) (by simp [h])
  · exact h
  · exact absurd hsym h
  · exact absurd hsym h

/-- Rule R134: even segments are HIGH. -/
theorem segLevel_eq (seg : BitVec 2) : segLevel seg = decide (seg.toNat % 2 = 0) := by
  revert seg
  decide

theorem segLevel_succ (seg : BitVec 2) : segLevel (seg + 1#2) = decide ((seg.toNat + 1) % 2 = 0) := by
  revert seg
  decide

end Sys2Proof.Machine

/-! ## The obligations -/

namespace Sys2Proof.Claims

open Sys2Proof.Machine

/-- Settles O40, one kind of segment end after another. -/
theorem txStepAdvancesSequencer : Obligations.TxStepAdvancesSequencer := by
  intro s len hbusy hlen hinterval
  rw [exec_txStep_of_due hbusy (hinterval ▸ hlen)]
  refine ⟨fun hmid => ?_, fun hsym hseg => ?_, fun hsym hseg hmore => ?_, fun hsym hseg hdone => ?_⟩
  · have hlast : lastSegment s.encoder = false := by
      rw [lastSegment_eq_false_iff]
      rcases hmid with ⟨hsym, hseg⟩ | ⟨hsym, hseg⟩
      · exact ⟨fun ⟨_, h3⟩ => hseg h3, fun ⟨h12, _⟩ => by simp [h12] at hsym⟩
      · exact ⟨fun ⟨hlt, _⟩ => by simp [hsym] at hlt, fun ⟨_, h1⟩ => by simp [hseg] at h1⟩
    rw [txAdvance_of_not_last _ hlast, ← segLevel_succ]
    rfl
  · rw [txAdvance_of_symbol_end _ hsym hseg]
    rfl
  · rw [txAdvance_sync_nextFrame _ hsym hseg hmore]
    rfl
  · rw [txAdvance_sync_finish _ hsym hseg hdone]
    rfl

/-- Settles O52. The segment end that comes first lies the segment's length after its start, and the effect of `TX_STEP`
there leaves decoder and arrivals alone. -/
theorem stepEndsSegmentsOnTime : Obligations.StepEndsSegmentsOnTime := by
  intro s t h
  obtain ⟨hend, -⟩ := id h
  obtain ⟨len, -, hlen, -, -, -, hinterval, -⟩ := segmentEnd_eq_some hend
  obtain ⟨-, hdecoder, hclk, hinbox, -, -, hstart⟩ := txAdvance_frame t (s.quiet.atClock t)
  exact ⟨_, len, step_of_segmentEndFirst h, step_eq_txAdvance h, hlen, hinterval, hclk, hstart, hinbox, hdecoder⟩

/-- Settles O38: an idle encoder accepts a period that is not 0. -/
theorem sendStartsTransmission : Obligations.SendStartsTransmission :=
  fun _ _ hidle hw => ⟨exec_sendTelegram_of_accepted hidle hw, exec_sendCode_of_accepted hidle hw⟩

/-- Settles O39: a send is refused for either reason alone. -/
theorem turnedAwayRequestsChangeNothing : Obligations.TurnedAwayRequestsChangeNothing := by
  refine ⟨fun w s h => ?_, fun _ => rfl, fun _ p r s h => exec_encodeTelegram_of_reserved p r s h⟩
  rw [← periodField_eq_zero_iff, ← sendRefused_iff] at h
  exact ⟨if_pos h, if_pos h⟩

/-- Settles O41: either reason alone suffices that no segment is due. -/
theorem txStepOutsideItsInstantIsInert : Obligations.TxStepOutsideItsInstantIsInert := by
  intro s h
  refine exec_txStep_of_not_due fun ⟨hbusy, hdue⟩ => ?_
  rcases h with hidle | hother
  · simp [hbusy] at hidle
  · exact hother hdue

end Sys2Proof.Claims
end

section
/-!
PROOFS. A whole transmission: its list of segments in number and length (O44), and the machine that sends them one step
after another (O45).
-/

namespace Sys2Proof.Machine

open Sys2Proof.Safety Sys2Proof.Claims

/-! ## The segments of a frame -/

/-- A symbol that is not reserved has four segments (rule R134). -/
theorem symbolLens_length : ∀ x : BitVec 2, x ≠ 3#2 → (symbolLens x).length = 4 := by decide

theorem length_flatMap_four {n : Nat} {f : Nat → List Nat} (hf : ∀ i < n, (f i).length = 4) :
    ((List.range n).flatMap f).length = 4 * n := by
  rw [List.length_flatMap, List.map_congr_left fun i hi => hf i (List.mem_range.mp hi), List.map_const',
    List.sum_replicate, List.length_range, smul_eq_mul, Nat.mul_comm]

/-- In a row of lists of four, element `j` of list `i` stands at `4i + j`. -/
theorem getElem?_flatMap_four {n i j : Nat} {f : Nat → List Nat} (hf : ∀ i < n, (f i).length = 4) (hi : i < n)
    (hj : j < 4) : ((List.range n).flatMap f)[4 * i + j]? = (f i)[j]? := by
  induction n with
  | zero => omega
  | succ n ih =>
    have hf' : ∀ i < n, (f i).length = 4 := fun i hi => hf i (by omega)
    have hlen := length_flatMap_four hf'
    rw [List.range_succ, List.flatMap_append, List.flatMap_singleton]
    rcases Nat.lt_succ_iff_lt_or_eq.mp hi with hlt | rfl
    · rw [List.getElem?_append_left (by omega), ih hf' hlt]
    · rw [List.getElem?_append_right (by omega), hlen, Nat.add_sub_cancel_left]

theorem length_frameLens {v : BitVec 24} (hv : hasReservedSymbol v = false) : (frameLens v).length = 50 := by
  rw [hasReservedSymbol_eq_false] at hv
  rw [frameLens, List.length_append, symIndices, length_flatMap_four fun i hi => symbolLens_length _ (hv i hi)]
  rfl

/-- A frame has 128 periods (rules R60, R61). -/
theorem sum_frameLens {v : BitVec 24} (hv : hasReservedSymbol v = false) : (frameLens v).sum = 128 := by
  rw [frameLens_eq hv, List.sum_append, ← bitsLen, bitsLen_frameBits]
  rfl

/-- The place of the segment in progress in its frame; the sync counts as symbol 12. -/
def framePosition (e : Encoder) : Nat := 4 * e.txSym.toNat + e.txSeg.toNat

/-- The frame has there what the table has in the row being sent. -/
theorem getElem?_frameLens {e : Encoder} (h : SequencerInTable e) :
    (frameLens e.txSymbols)[framePosition e]? = (segmentRow e)[e.txSeg.toNat]? := by
  obtain ⟨hsym, -, hlegal⟩ := h
  rw [hasReservedSymbol_eq_false] at hlegal
  have hfour : ∀ i < 12, (symbolLens (symAt e.txSymbols i)).length = 4 := fun i hi => symbolLens_length _ (hlegal i hi)
  have hlen : (symIndices.flatMap fun i => symbolLens (symAt e.txSymbols i)).length = 48 := length_flatMap_four hfour
  have hseg := e.txSeg.isLt
  rw [framePosition, frameLens, segmentRow]
  rcases Nat.lt_or_eq_of_le hsym with hlt | h12
  · rw [if_pos hlt, List.getElem?_append_left (by omega)]
    exact getElem?_flatMap_four hfour hlt hseg
  · rw [h12, List.getElem?_append_right (by omega), hlen, Nat.add_sub_cancel_left]
    rfl

/-- A segment of a list of alternating levels: the first level at even places. -/
theorem getElem?_alternate (p : Nat) (level : Bool) (lens : List Nat) (k : Nat) :
    (alternate p level lens)[k]? = lens[k]?.map fun len => (level == decide (k % 2 = 0), len * p) := by
  induction lens generalizing level k with
  | nil => rfl
  | cons len lens ih =>
    cases k with
    | zero => simp [alternate]
    | succ k =>
      rw [alternate, List.getElem?_cons_succ, List.getElem?_cons_succ, ih]
      rcases Nat.mod_two_eq_zero_or_one k with h | h <;> cases level <;> simp [h, Nat.add_mod]

theorem length_alternate (p : Nat) (level : Bool) (lens : List Nat) :
    (alternate p level lens).length = lens.length := by
  rw [← List.length_map Prod.snd, alternate_map_snd, List.length_map]

/-! ## The segments of a transmission -/

theorem length_frameSegments {v : BitVec 24} (p : Nat) (hv : hasReservedSymbol v = false) :
    (frameSegments v p).length = 50 := by
  rw [frameSegments, length_alternate, length_frameLens hv]

theorem sum_frameSegments {v : BitVec 24} (p : Nat) (hv : hasReservedSymbol v = false) :
    ((frameSegments v p).map Prod.snd).sum = 128 * p := by
  rw [frameSegments, alternate_map_snd, List.sum_map_mul_right, List.map_id', sum_frameLens hv]

/-- Rule R142: `2^r` frames of 50 segments. -/
theorem length_segments (c : BitVec 20) (p r : Nat) : (segments c p r).length = 50 * 2 ^ r := by
  rw [segments, List.length_flatten, List.map_replicate, List.sum_replicate,
    length_frameSegments p (codeToSymv_no_reserved c), smul_eq_mul, Nat.mul_comm]

/-- Rules R138, R142: `2^r` frames of 128 periods. -/
theorem sum_segments (c : BitVec 20) (p r : Nat) : ((segments c p r).map Prod.snd).sum = 2 ^ r * 128 * p := by
  rw [segments, List.map_flatten, List.sum_flatten, List.map_replicate, List.map_replicate, List.sum_replicate,
    sum_frameSegments p (codeToSymv_no_reserved c), smul_eq_mul, Nat.mul_assoc]

/-! ## The segments still to go -/

/-- The segments of each frame the encoder sends (rule R138). -/
def sentFrame (e : Encoder) : List (Bool × Nat) := frameSegments e.txSymbols e.txPeriod.toNat

/-- The segments of the frames after the one in progress (rule R136). -/
def framesAfter (e : Encoder) : List (Bool × Nat) :=
  (List.replicate (e.txRepeats.toNat - e.txRep.toNat - 1) (sentFrame e)).flatten

/-- The segments of a transmission that have not ended yet: the rest of the frame in progress and the frames after it
(rules R136, R142). -/
def segmentsToGo (e : Encoder) : List (Bool × Nat) :=
  if e.txBusy then
    (sentFrame e).drop (framePosition e) ++ framesAfter e
  else []

theorem segmentsToGo_eq {e : Encoder} (hbusy : e.txBusy = true) :
    segmentsToGo e = (sentFrame e).drop (framePosition e) ++ framesAfter e := if_pos hbusy

theorem segmentsToGo_of_idle {e : Encoder} (hidle : e.txBusy = false) : segmentsToGo e = [] :=
  if_neg (by simp [hidle])

/-- The number of frames, at most 128, fits its register (rules R22, R132). -/
theorem toNat_ofNat_two_pow (r : BitVec 3) : (BitVec.ofNat 8 (2 ^ r.toNat)).toNat = 2 ^ r.toNat := by
  rw [BitVec.toNat_ofNat]
  exact Nat.mod_eq_of_lt (Nat.pow_lt_pow_right (by decide) r.isLt)

/-- At the start of a transmission all its segments are to go. -/
theorem segmentsToGo_startTransmission (c : BitVec 20) (p : BitVec 9) (r : BitVec 3) (restore : Bool) (now : Stamp) :
    segmentsToGo (startTransmission c p r restore now) = segments c p.toNat r.toNat := by
  obtain ⟨n, hn⟩ : ∃ n, 2 ^ r.toNat = n + 1 := Nat.exists_eq_add_one.mpr (Nat.two_pow_pos _)
  have hframes : (startTransmission c p r restore now).txRepeats.toNat = n + 1 := (toNat_ofNat_two_pow r).trans hn
  rw [segmentsToGo, framesAfter, hframes, segments, hn, List.replicate_succ, List.flatten_cons]
  rfl

/-- Rules R134, R137: the segment in progress is the one of the frame at its place. -/
theorem drop_sentFrame {e : Encoder} (h : SequencerInTable e) :
    ∃ len, segmentMicros e = some len ∧
      (sentFrame e).drop (framePosition e) = (segLevel e.txSeg, len) :: (sentFrame e).drop (framePosition e + 1) := by
  obtain ⟨hsym, -, hlegal⟩ := id h
  have hpos : framePosition e < (frameLens e.txSymbols).length := by
    have := e.txSeg.isLt
    rw [length_frameLens hlegal, framePosition]
    omega
  have hlen := List.getElem?_eq_getElem hpos
  have hlevel : (true == decide (framePosition e % 2 = 0)) = segLevel e.txSeg := by
    have hparity : framePosition e % 2 = e.txSeg.toNat % 2 := by rw [framePosition]; omega
    rw [segLevel_eq, hparity, Bool.true_beq]
  have hget : (sentFrame e)[framePosition e]? = _ := getElem?_alternate _ true _ _
  rw [hlen, Option.map_some, hlevel] at hget
  obtain ⟨hlt, hget⟩ := List.getElem?_eq_some_iff.mp hget
  refine ⟨_, ?_, by rw [List.drop_eq_getElem_cons hlt, hget]⟩
  rw [segmentMicros, ← getElem?_frameLens h, hlen]
  rfl

/-- The segments after the one in progress. -/
def segmentsAfter (e : Encoder) : List (Bool × Nat) :=
  (sentFrame e).drop (framePosition e + 1) ++ framesAfter e

/-- During a transmission the first segment to go is the one in progress, with the level on the line. -/
theorem segmentsToGo_of_busy {e : Encoder} (h : EncoderInv e) (hbusy : e.txBusy = true) :
    ∃ len, segmentMicros e = some len ∧ segmentsToGo e = (e.txLevel, len) :: segmentsAfter e := by
  obtain ⟨htable, hfacts, -⟩ := h
  obtain ⟨-, -, hlevel⟩ := hfacts hbusy
  obtain ⟨len, hlen, hdrop⟩ := drop_sentFrame htable
  exact ⟨len, hlen, by rw [segmentsToGo_eq hbusy, hdrop, hlevel, List.cons_append, segmentsAfter]⟩

theorem segmentsToGo_nextSegment {e : Encoder} (hbusy : e.txBusy = true) (hseg : e.txSeg ≠ 3#2) :
    segmentsToGo (nextSegment e) = segmentsAfter e := by
  have hpos : framePosition (nextSegment e) = framePosition e + 1 := by
    simp only [framePosition, nextSegment_txSym, nextSegment_txSeg]
    bv_omega
  rw [segmentsToGo_eq (e := nextSegment e) hbusy, hpos]
  rfl

theorem segmentsToGo_nextSymbol {e : Encoder} (hbusy : e.txBusy = true) (hsym : e.txSym.toNat < 12)
    (hseg : e.txSeg = 3#2) : segmentsToGo (nextSymbol e) = segmentsAfter e := by
  have hpos : framePosition (nextSymbol e) = framePosition e + 1 := by
    simp only [framePosition, nextSymbol_txSym, nextSymbol_txSeg, hseg]
    bv_omega
  rw [segmentsToGo_eq (e := nextSymbol e) hbusy, hpos]
  rfl

/-- After the sync the frame is over, and only whole frames are to go. -/
theorem segmentsAfter_of_sync_end {e : Encoder} (hlegal : hasReservedSymbol e.txSymbols = false)
    (hsym : e.txSym = 12#4) (hseg : e.txSeg = 1#2) :
    segmentsAfter e = framesAfter e := by
  have hpos : framePosition e + 1 = 50 := by rw [framePosition, hsym, hseg]; rfl
  rw [segmentsAfter, hpos, List.drop_eq_nil_of_le (by rw [sentFrame, length_frameSegments _ hlegal]), List.nil_append]

theorem segmentsToGo_nextFrame {e : Encoder} (hbusy : e.txBusy = true) (hlegal : hasReservedSymbol e.txSymbols = false)
    (hsym : e.txSym = 12#4) (hseg : e.txSeg = 1#2) (hmore : e.txRep.toNat + 1 < e.txRepeats.toNat) :
    segmentsToGo (nextFrame e) = segmentsAfter e := by
  have hrep : (nextFrame e).txRep.toNat = e.txRep.toNat + 1 := by
    have := e.txRepeats.isLt
    rw [nextFrame_txRep]
    bv_omega
  have hframes : e.txRepeats.toNat - e.txRep.toNat - 1 = e.txRepeats.toNat - (e.txRep.toNat + 1) - 1 + 1 := by omega
  rw [segmentsAfter_of_sync_end hlegal hsym hseg, framesAfter, hframes, List.replicate_succ, List.flatten_cons,
    segmentsToGo_eq (e := nextFrame e) hbusy, framesAfter, hrep]
  rfl

theorem segmentsToGo_finishTransmission {e : Encoder} (hlegal : hasReservedSymbol e.txSymbols = false)
    (hsym : e.txSym = 12#4) (hseg : e.txSeg = 1#2) (hdone : ¬ e.txRep.toNat + 1 < e.txRepeats.toNat) :
    segmentsToGo (finishTransmission e) = segmentsAfter e := by
  have hframes : e.txRepeats.toNat - e.txRep.toNat - 1 = 0 := by omega
  rw [segmentsAfter_of_sync_end hlegal hsym hseg, framesAfter, hframes]
  rfl

/-- In the table only the fourth segment of a symbol and the second of the sync are last (rule R136). -/
theorem txSeg_ne_three {e : Encoder} (htable : SequencerInTable e) (hlast : lastSegment e = false) : e.txSeg ≠ 3#2 := by
  obtain ⟨hsym, hsync, -⟩ := htable
  intro h3
  rcases Nat.lt_or_eq_of_le hsym with hlt | h12
  · exact absurd ((lastSegment_iff e).mpr (.inl ⟨hlt, h3⟩)) (by simp [hlast])
  · have := hsync h12
    simp [h3] at this

/-- Rule R136: the end of a segment takes it off the list. -/
theorem segmentsToGo_txAdvance {s : State} (now : Stamp) (htable : SequencerInTable s.encoder)
    (hbusy : s.encoder.txBusy = true) : segmentsToGo (txAdvance now s).encoder = segmentsAfter s.encoder := by
  obtain ⟨-, -, hlegal⟩ := id htable
  have hstamp : segmentsAfter s.encoder = segmentsAfter { s.encoder with txSegStart := now } := rfl
  rw [hstamp]
  rcases txAdvance_cases now s with ⟨hlast, ht⟩ | ⟨hlast, hlt, ht⟩ | ⟨hlast, hge, hmore, ht⟩ | ⟨hlast, hge, hdone, ht⟩
    <;> rw [ht]
  · exact segmentsToGo_nextSegment hbusy (txSeg_ne_three htable hlast)
  all_goals have hend := (lastSegment_iff _).mp hlast
  · obtain ⟨-, h3⟩ := hend.resolve_right fun ⟨h12, _⟩ => by simp [h12] at hlt
    exact segmentsToGo_nextSymbol hbusy hlt h3
  · obtain ⟨h12, h1⟩ := hend.resolve_left fun ⟨hlt, _⟩ => hge hlt
    exact segmentsToGo_nextFrame hbusy hlegal h12 h1 hmore
  · obtain ⟨h12, h1⟩ := hend.resolve_left fun ⟨hlt, _⟩ => hge hlt
    exact segmentsToGo_finishTransmission hlegal h12 h1 hdone

/-! ## A transmission on its own -/

/-- Nothing arrives, and the transmission in progress, if any, is one of `SEND_TELEGRAM`: until it ends the decoder is
disabled; it has the registers `d`. -/
structure Transmitting (config : Configuration) (d : Decoder) (s : State) : Prop where
  config : s.config = config
  inbox : s.inbox = []
  decoder : s.decoder = d
  encoder : EncoderInv s.encoder
  restore : s.encoder.txBusy = true → s.encoder.txRestore = true
  enabled : s.enabled = !s.encoder.txBusy

namespace Transmitting

variable {config : Configuration} {d : Decoder} {s : State}

theorem after_txAdvance (h : Transmitting config d s) (now : Stamp) (hbusy : s.encoder.txBusy = true) :
    Transmitting config d (txAdvance now s) := by
  obtain ⟨hconfig, hdecoder, -, hinbox, -⟩ := txAdvance_frame now s
  have hrestore := h.restore hbusy
  have henabled := h.enabled
  rw [hbusy] at henabled
  refine ⟨hconfig.trans h.config, hinbox.trans h.inbox, hdecoder.trans h.decoder,
    encoderInv_txAdvance now h.encoder hbusy, ?_, ?_⟩
  · intro hbusy'
    obtain ⟨-, hrestore', -⟩ := txAdvance_of_busy hbusy'
    exact hrestore'.trans hrestore
  · rcases txAdvance_cases now s with ⟨-, ht⟩ | ⟨-, -, ht⟩ | ⟨-, -, -, ht⟩ | ⟨-, -, -, ht⟩ <;> rw [ht]
    · simp [henabled, hbusy]
    · simp [henabled, hbusy]
    · simp [henabled, hbusy]
    · simp [hrestore]

/-- Rules R136, R137: a step runs the segment in progress to its end. -/
theorem after_step (h : Transmitting config d s) (htw : 14 ≤ config.tw) (hbusy : s.encoder.txBusy = true) :
    ∃ len u, segmentsToGo s.encoder = (s.tx, len) :: segmentsToGo u.encoder ∧ step s = .next u ∧
      Transmitting config d u ∧ u.encoder.txSegStart = wrap config.tw (s.encoder.txSegStart + len) ∧
      u.clk = u.encoder.txSegStart := by
  obtain ⟨htable, -⟩ := id h.encoder
  obtain ⟨len, hlen, hgo⟩ := segmentsToGo_of_busy h.encoder hbusy
  have hconfig := h.config
  subst hconfig
  obtain ⟨t, ht, hend⟩ : ∃ t, t = wrap s.config.tw (s.encoder.txSegStart + len) ∧
      segmentEnd s.config.tw s.encoder = some t := ⟨_, rfl, segmentEnd_of_busy htw hbusy hlen⟩
  have hfirst : SegmentEndFirst t s := ⟨hend, fun a later ha => by simp [h.inbox] at ha⟩
  have hat : Transmitting s.config d (s.quiet.atClock t) :=
    ⟨rfl, h.inbox, h.decoder, h.encoder, h.restore, h.enabled⟩
  obtain ⟨-, -, hclk, -, -, -, hstart⟩ := txAdvance_frame t (s.quiet.atClock t)
  refine ⟨len, _, ?_, step_eq_txAdvance hfirst, hat.after_txAdvance t hbusy, hstart.trans ht, hclk.trans hstart.symm⟩
  rw [hgo, segmentsToGo_txAdvance t (s := s.quiet.atClock t) htable hbusy]
  rfl

/-- While a segment is to go the line shows its level, and the decoder is disabled. -/
theorem of_cons {g : Bool × Nat} {gs : List (Bool × Nat)} (h : Transmitting config d s)
    (hgo : segmentsToGo s.encoder = g :: gs) :
    s.tx = g.1 ∧ s.encoder.txBusy = true ∧ s.enabled = false := by
  have henabled := h.enabled
  cases hbusy : s.encoder.txBusy with
  | false => simp [segmentsToGo_of_idle hbusy] at hgo
  | true =>
    obtain ⟨len, -, hcons⟩ := segmentsToGo_of_busy h.encoder hbusy
    obtain ⟨rfl, -⟩ := List.cons.inj (hgo.symm.trans hcons)
    exact ⟨rfl, rfl, by rw [henabled, hbusy, Bool.not_true]⟩

/-- With no segment to go the transmission is over, the line is LOW and the decoder enabled. -/
theorem of_nil (h : Transmitting config d s) (hgo : segmentsToGo s.encoder = []) :
    s.tx = false ∧ s.encoder.txBusy = false ∧ s.enabled = true := by
  have henabled := h.enabled
  obtain ⟨-, -, hidle⟩ := h.encoder
  cases hbusy : s.encoder.txBusy with
  | false =>
    obtain ⟨hlevel, -⟩ := hidle hbusy
    exact ⟨hlevel, rfl, by rw [henabled, hbusy, Bool.not_false]⟩
  | true =>
    obtain ⟨len, -, hcons⟩ := segmentsToGo_of_busy h.encoder hbusy
    cases hgo.symm.trans hcons

/-- Rule R131: an accepted `SEND_TELEGRAM` to which nothing arrives. -/
theorem of_startWord {w : Word} (hw : 2 ^ 23 ≤ w.toNat) (hinbox : s.inbox = []) :
    Transmitting s.config s.decoder { s with enabled := false, encoder := startWord w true s.now } := by
  have hperiod : periodField w ≠ 0#9 := fun h0 => by
    rw [periodField_eq_zero_iff] at h0
    omega
  exact ⟨rfl, hinbox, rfl, encoderInv_startTransmission _ _ _ _ hperiod, fun _ => rfl, rfl⟩

end Transmitting

/-! ## One step after another -/

theorem runSteps_succ_of_next {k : Nat} {s u : State} (h : runSteps k s = .next u) : runSteps (k + 1) s = step u := by
  induction k generalizing s with
  | zero =>
    cases h
    cases hs : step u <;> simp only [runSteps, hs]
  | succ k ih =>
    rw [runSteps] at h ⊢
    cases hs : step s with
    | next v =>
      simp only [hs] at h ⊢
      exact ih h
    | fault => simp [hs] at h
    | refused => simp [hs] at h

/-- After `k` steps the first `k` segments are over. -/
theorem Transmitting.after_runSteps {config : Configuration} {d : Decoder} {s : State} (h : Transmitting config d s)
    (htw : 14 ≤ config.tw) (hstart : wrap config.tw s.clk = s.encoder.txSegStart) :
    ∀ k ≤ (segmentsToGo s.encoder).length, ∃ u, runSteps k s = .next u ∧ Transmitting config d u ∧
      segmentsToGo u.encoder = (segmentsToGo s.encoder).drop k ∧
      u.encoder.txSegStart = wrap config.tw (s.clk + (((segmentsToGo s.encoder).take k).map Prod.snd).sum) ∧
      (0 < k → u.clk = u.encoder.txSegStart) := by
  intro k hk
  induction k with
  | zero => exact ⟨s, rfl, h, rfl, hstart.symm, fun h0 => absurd h0 (by decide)⟩
  | succ k ih =>
    obtain ⟨u, hrun, hu, hgo, hstart, -⟩ := ih (by omega)
    have hlt : k < (segmentsToGo s.encoder).length := by omega
    rw [List.drop_eq_getElem_cons hlt] at hgo
    obtain ⟨-, hbusy, -⟩ := hu.of_cons hgo
    obtain ⟨len, v, hcons, hstep, hv, hstart', hclk⟩ := hu.after_step htw hbusy
    obtain ⟨hhead, htail⟩ := List.cons.inj (hgo.symm.trans hcons)
    refine ⟨v, (runSteps_succ_of_next hrun).trans hstep, hv, htail.symm, ?_, fun _ => hclk⟩
    rw [hstart', hstart, List.take_succ_eq_append_getElem hlt, hhead, List.map_append, List.sum_append, ← Nat.add_assoc]
    simp [wrap]

end Sys2Proof.Machine

/-! ## The obligations -/

namespace Sys2Proof.Claims

open Sys2Proof.Machine

/-- Settles O44, frame by frame. -/
theorem transmissionLengthIs128PeriodsPerFrame : Obligations.TransmissionLengthIs128PeriodsPerFrame :=
  fun c p r => ⟨length_segments c p r, sum_segments c p r⟩

/-- Settles O45. After the send the machine transmits on its own, with all segments of the list to go; before step `k`
the list without its first `k` segments is to go, and its head is what the line shows. -/
theorem transmissionRunsItsSegments : Obligations.TransmissionRunsItsSegments := by
  intro w s segs htw hidle hw hinbox hsegs
  obtain ⟨s1, hs1⟩ : ∃ s1, s1 = { s with enabled := false, encoder := startWord w true s.now } := ⟨_, rfl⟩
  have hexec : exec (.sendTelegram w) s = .next s1 := hs1 ▸ exec_sendTelegram_of_accepted hidle hw
  have hsends : Transmitting s.config s.decoder s1 := hs1 ▸ .of_startWord hw hinbox
  have hgo : segmentsToGo s1.encoder = segs := by
    rw [hsegs, hs1]
    exact segmentsToGo_startTransmission _ _ _ _ _
  have hclk : s1.clk = s.clk := hs1 ▸ rfl
  have hruns := hsends.after_runSteps htw (hs1 ▸ rfl)
  rw [hgo, hclk] at hruns
  refine ⟨s1, hexec, fun k g hg => ?_, ?_⟩
  · obtain ⟨hk, rfl⟩ := List.getElem?_eq_some_iff.mp hg
    obtain ⟨u, hrun, hu, hrest, hstart, -⟩ := hruns k hk.le
    rw [List.drop_eq_getElem_cons hk] at hrest
    obtain ⟨htx, hbusy, henabled⟩ := hu.of_cons hrest
    exact ⟨u, hrun, htx, hbusy, henabled, hu.decoder, hstart⟩
  · obtain ⟨t, hrun, ht, hrest, hstart, hnow⟩ := hruns _ le_rfl
    rw [List.drop_length] at hrest
    rw [List.take_length] at hstart
    obtain ⟨htx, hidle', henabled⟩ := ht.of_nil hrest
    have hpos : 0 < segs.length := by
      rw [hsegs, length_segments]
      positivity
    exact ⟨t, hrun, htx, hidle', henabled, ht.decoder, (hnow hpos).trans hstart⟩

end Sys2Proof.Claims
end

section
/-!
PROOFS. `READ_STATE` (43_control.md): word 0 of the record, read field by field (O47).
-/

namespace Sys2Proof.Machine

/-! ## The bytes and bits that make up word 0 -/

@[simp] theorem getElem_recordBit (v : Bool) : (recordBit v)[0] = v := by cases v <;> rfl

/-- Rules R13, R154: the number of a symbol stays below 128, where the byte's sign is not set. -/
theorem seqByte_symbol_toInt (n : Fin 48) : (seqByte (.symbol n)).toInt = n.val := by
  have hsmall : n.val < 128 := n.isLt.trans (by decide)
  exact (BitVec.toInt_ofNat' ..).trans (Int.bmod_eq_of_le (by omega) (by omega))

/-! ## Word 0 read back

Each field is read at the place it is appended at, past the fields below it and short of those above it. -/

theorem recordWord0_state (s : State) : (recordWord0 s).extractLsb' 0 8 = seqByte s.decoder.state := by
  simp (disch := decide) only [recordWord0, BitVec.extractLsb'_append_eq_of_add_le]
  simp

/-- Rule R154: the five flags, one bit each. -/
theorem recordWord0_flags (s : State) :
    (recordWord0 s).getLsbD 8 = s.decoder.skip ∧ (recordWord0 s).getLsbD 9 = s.enabled ∧
    (recordWord0 s).getLsbD 10 = s.decoder.inCallback ∧ (recordWord0 s).getLsbD 11 = s.encoder.txBusy ∧
    (recordWord0 s).getLsbD 12 = s.encoder.txLevel := by
  simp only [recordWord0, BitVec.getLsbD_append]
  simp

/-- Rule R154: the counter of received bits, the counter of repeats, and 0 in the bits that hold no field. -/
theorem recordWord0_counters (s : State) :
    (recordWord0 s).extractLsb' 13 3 = 0#3 ∧ (recordWord0 s).extractLsb' 16 4 = s.decoder.receivedBit ∧
    (recordWord0 s).extractLsb' 20 4 = 0#4 ∧ (recordWord0 s).extractLsb' 24 8 = s.decoder.repeats := by
  simp (disch := decide) only [recordWord0, BitVec.extractLsb'_append_eq_of_le, BitVec.extractLsb'_append_eq_of_add_le]
  simp

end Sys2Proof.Machine

/-! ## The obligation -/

namespace Sys2Proof.Claims

open Sys2Proof.Machine

/-- Settles O47: word 0 is `recordWord0`, the other eleven words are the registers as they stand. -/
theorem readStateReturnsRecord : Obligations.ReadStateReturnsRecord := by
  refine ⟨fun _ _ _ => rfl, fun s => ⟨recordWord0 s, rfl, ?_⟩⟩
  obtain ⟨hskip, henabled, hcallback, hbusy, hlevel⟩ := recordWord0_flags s
  obtain ⟨hgap13, hreceived, hgap20, hrepeats⟩ := recordWord0_counters s
  refine ⟨?_, hskip, henabled, hcallback, hbusy, hlevel, hgap13, hreceived, hgap20, hrepeats⟩
  rw [recordWord0_state]
  cases s.decoder.state with
  | symbol n => exact seqByte_symbol_toInt n
  | syncWait | finalSync1 | finalSync2 => rfl

end Sys2Proof.Claims
end

section
/-!
PROOFS. Exceptions (60_exceptions.md): every instruction completes, and so does every step fed by the ports alone (O55).
-/

namespace Sys2Proof.Machine

open Sys2Proof.Safety

/-! ## Every instruction completes -/

theorem ite_next_completes {c : Prop} [Decidable c] (u v : State) :
    ∃ t, (if c then .next u else .next v : Host.Outcome State Fault Refusal) = .next t :=
  ⟨if c then u else v, (apply_ite _ _ _ _).symm⟩

/-- Rules R165, R167: an instruction that is turned away completes too, with the state as it was. -/
theorem exec_completes (i : Instr) (s : State) : ∃ t, exec i s = .next t := by
  cases i with
  | nop | enable | disable | setMinRepeats | cbDone | readState | reset | reservedF => exact ⟨_, rfl⟩
  | unpackTelegram | codeToSymbols | isSameCode | getTelegram | getKaku | getKakuGroup | getAction | getBlokker
  | getElro => exact ⟨_, rfl⟩
  | telegramWord | symLow | symHigh | symFloat | symReserved => exact ⟨_, rfl⟩
  | rxTrit0 | rxTrit1 | rxTrit2 | rxIllegal | rxSync => exact ⟨_, rfl⟩
  | encodeTelegram | symv | edge | sendTelegram | sendCode => exact ite_next_completes _ _
  | txStep | txSym0 | txSym1 | txSym2 | txSync => exact ite_next_completes _ _

/-! ## What the ports carry completes -/

/-- A stimulus of the ports is an instruction: a transition of the receive line is `EDGE`, and a request always decodes,
since only line patterns can be no encoding. -/
theorem runStimulus_of_onPort {x : Stimulus} (hx : onPort x = true) (s : State) :
    ∃ i, runStimulus x s = exec i s := by
  cases x with
  | rxEdge => exact ⟨.edge s.now, rfl⟩
  | word w =>
    cases w with
    | op q => exact ⟨decodeRequest q, runWord_of_decode (w := .op q) rfl s⟩
    | internal | tuple | tw32 | sym | symv24 | air4 | airsync | line8 | line32 => cases hx

theorem onPorts_cons (a : Arrival) (later : List Arrival) :
    onPorts (a :: later) = true ↔ onPort a.what = true ∧ onPorts later = true := by
  simp [onPorts]

end Sys2Proof.Machine

/-! ## The obligation -/

namespace Sys2Proof.Claims

open Sys2Proof.Machine Sys2Proof.Safety

/-- Settles O55. A step rests, ends a segment, or runs the instruction of the first arrival, and no instruction writes
what is still to arrive (`exec_effect`). -/
theorem nothingStopsTheMachine : Obligations.NothingStopsTheMachine := by
  refine ⟨exec_completes, fun s hports => ?_⟩
  rcases step_cases s with ⟨-, -, hstep⟩ | ⟨stop, -, hstep⟩ | ⟨a, later, hinbox, hstep⟩
  · exact ⟨_, hstep, hports⟩
  · obtain ⟨-, -, -, hkept, -⟩ := txAdvance_frame stop (s.quiet.atClock stop)
    exact ⟨_, hstep, hkept ▸ hports⟩
  · rw [hinbox, onPorts_cons] at hports
    obtain ⟨hfirst, hlater⟩ := hports
    obtain ⟨i, hrun⟩ := runStimulus_of_onPort hfirst (s.quiet.takeArrival a later)
    obtain ⟨t, ht⟩ := exec_completes i (s.quiet.takeArrival a later)
    exact ⟨t, hstep.trans (hrun.trans ht), (exec_effect ht).inbox_eq ▸ hlater⟩

end Sys2Proof.Claims
end

section
/-!
PROOFS. Reset and hazards (70_reset_and_hazards.md): the first two edges after reset (O31), and the machine at rest (O53).
-/

namespace Sys2Proof.Machine

open Sys2Proof.Safety Sys2Proof.Claims

/-! ## The first edges after reset -/

/-- The machine of a configuration after its first edge since reset, at `t1` (rule R187). -/
def afterFirstEdge (config : Configuration) (t1 : Stamp) : State :=
  { State.resetWith config with decoder := { Decoder.reset with t2 := wrap config.tw t1 } }

/-- Rule R187: the first edge consumes the duration 0 of the cleared window. -/
theorem leadsTo_firstEdge (config : Configuration) (t1 : Stamp) :
    LeadsTo [.edge t1] (State.resetWith config) (afterFirstEdge config t1) := by
  have hnone : duration (State.resetWith config) = 0 := interval_self config.tw 0
  exact leadsTo_edge (s := State.resetWith config) ⟨rfl, rfl, .inl rfl⟩
    (consumeDuration_wait (d := windowMoved t1 (State.resetWith config)) rfl (by omega))

/-- Rule R187: what the second edge will consume is the clock value of the first, counted from the cleared `t[0]`. -/
theorem duration_afterFirstEdge (config : Configuration) (t1 : Stamp) :
    duration (afterFirstEdge config t1) = wrap config.tw t1 :=
  (interval_zero _ _).trans (wrap_wrap _ _)

end Sys2Proof.Machine

/-! ## The obligations -/

namespace Sys2Proof.Claims

open Sys2Proof.Machine Sys2Proof.Safety

/-- Settles O31: in `SYNC_WAIT` the second edge takes the first one's clock value for a sync gap. -/
theorem firstEdgeTimeCountsAsInterval : Obligations.FirstEdgeTimeCountsAsInterval := by
  rintro config t1 t2 first rfl hgap
  have hlong : 3720 < duration (afterFirstEdge config t1) := by
    rw [duration_afterFirstEdge]
    exact hgap
  have hsecond := leadsTo_edge (now := t2) (s := afterFirstEdge config t1) ⟨rfl, rfl, .inl rfl⟩
    (consumeDuration_sync (d := windowMoved t2 (afterFirstEdge config t1)) rfl hlong)
  rw [duration_afterFirstEdge] at hsecond
  exact ⟨_, (leadsTo_firstEdge config t1).trans hsecond [], rfl, rfl, rfl, rfl, rfl⟩

/-- Settles O53: of what a step can do (`step_cases`), an idle encoder ends no segment and an empty inbox holds no
arrival. -/
theorem machineRestsWithNothingToCome : Obligations.MachineRestsWithNothingToCome := by
  intro s hidle hempty
  rcases step_cases s with ⟨-, -, hrest⟩ | ⟨stop, hend, -⟩ | ⟨a, later, harrival, -⟩
  · exact hrest
  · rw [segmentEnd_of_idle _ hidle] at hend
    cases hend
  · rw [hempty] at harrival
    cases harrival

end Sys2Proof.Claims
end
